-- ==== Sys2Proof/Word.lean ====
section
/-! DEFINITION. Sys2Proof/Word.lean: the bytes, lines and codewords of the part, and the identifiers that name its table
positions. Nothing here depends on a rule that a test could show wrong. -/

namespace Sys2Proof

/-- One byte: one symbol of a codeword (R19). -/
abbrev Byte := BitVec 8

/-- The 64 data bytes of a line, index 0 first (R19, R33). -/
abbrev LineData := Vector Byte 64

/-- The 84 bytes of a line on media: 64 data bytes, then 20 check bytes (R19). -/
abbrev Codeword := Vector Byte 84

/-- A tag of the host channel, 0 to 31 (R33). -/
abbrev Tag := Fin 32

/-- The identifier of a media operation slot, 0 to 7 (R54). -/
abbrev SlotId := Fin 8

/-- A spare index, 0 to 1023 (R7). -/
abbrev Spare := Fin 1024

/-- A line of 64 zero bytes. -/
def zeroLine : LineData := Vector.replicate 64 0

/-- A 32-bit count raised by one, saturating at 4,294,967,295 (every counter of the part). -/
def satInc (n : BitVec 32) : BitVec 32 := if n = BitVec.allOnes 32 then n else n + 1

end Sys2Proof
end

