-- ==== Sys2Proof/Syntax.lean ====
section
/-! DEFINITION. Sys2Proof/Syntax.lean: the commands and events of the part, one constructor per row of
spec/opcode_table.json. The part is a block, not a processor: a "command" is a request on the host channel, a response
on the media channel, the expiry of a timer, a pin event or a frame on the service port. -/

namespace Sys2Proof

/-- The status that a WRITE_STATUS carries (4.1). -/
inductive WriteStatus where
  | done
  | programFail
deriving DecidableEq, Repr

/-- One command or event of the part. -/
inductive Instr where
  /-- HOST_REQUEST: a request on the host channel, in the layout of 12.2: the kind code (byte 0), byte 1 with the tag in
  bits 4-0, the host line (bytes 2-5), the data bytes 0-63 and the mask (flag of data byte i = bit i). The data is
  part of the request for kinds 2 and 3, the mask for kind 3 (R33, R203). -/
  | hostRequest (kind : Byte) (tagByte : Byte) (hostLine : BitVec 32) (data : LineData) (mask : BitVec 64)
  /-- COMPLETION: the host channel takes the completion of the entry with this tag (R44). -/
  | completion (tag : Tag)
  /-- LINK_RESET: the indication on the host channel (R49). -/
  | linkReset
  /-- POWER_UP_RESET: power is applied or RESETN is released; the levels of MSZ1 and MSZ0 at that event (R1, R142). -/
  | powerUpReset (straps : BitVec 2)
  /-- PWARN_ASSERTED: the pin PWARN is driven to its asserted level (R153). -/
  | pwarnAsserted
  /-- READ_DATA: identifier and 84 bytes from the media bank (R56). -/
  | readData (id : SlotId) (word : Codeword)
  /-- WRITE_STATUS: identifier and DONE or PROGRAM_FAIL from the media bank (R57). -/
  | writeStatus (id : SlotId) (status : WriteStatus)
  /-- OPERATION_TIMEOUT: the 20 microsecond timer of the slot expires (R58). -/
  | operationTimeout (id : SlotId)
  /-- QUARANTINE_EXPIRY: the 80 microsecond quarantine timer of the slot expires (R59). -/
  | quarantineExpiry (id : SlotId)
  /-- PATROL_EXPIRY: the patrol interval timer expires (R158, R159). -/
  | patrolExpiry
  /-- MILLISECOND_TICK: one tick of the Notice Unit (R178). -/
  | millisecondTick
  /-- PACE_WRAP: the tick at which the pace counter reaches pace_period (R178). -/
  | paceWrap
  /-- GET_STATUS, code 1 (R197). -/
  | getStatus
  /-- GET_COUNTERS, code 2, with its clear flag (R200). -/
  | getCounters (clear : Byte)
  /-- READ_SETTING, code 3, with a setting index (R198). -/
  | readSetting (index : Byte)
  /-- WRITE_SETTING, code 4, with a setting index and a 4-byte value (R198). -/
  | writeSetting (index : Byte) (value : BitVec 32)
  /-- TAKE_NOTICE, code 5 (R176). -/
  | takeNotice
  /-- PEEK_NOTICE, code 6 (R176). -/
  | peekNotice
  /-- ACK_ALERT, code 7 (R183). -/
  | ackAlert
  /-- LOOKUP_LINE, code 8, with a host line (R18, R90, R117). -/
  | lookupLine (hostLine : BitVec 32)
  /-- READ_SPARE, code 9, with a spare index (R18). -/
  | readSpare (spare : BitVec 16)
  /-- READ_SUSPECT, code 10, with a position (R90). -/
  | readSuspect (position : Byte)
  /-- CLEAR_SUSPECT, code 11, with a host line (R88). -/
  | clearSuspect (hostLine : BitVec 32)
  /-- RETIRE_LINE, code 12, with a host line (R98). -/
  | retireLine (hostLine : BitVec 32)
  /-- RESTART_SWEEP, code 13 (R169). -/
  | restartSweep
  /-- QUIESCE, code 14 (R153). -/
  | quiesce
  /-- RESUME, code 15 (R155). -/
  | resume
  /-- RESTART, code 16, operand length 0: the taking of the frame (R195). -/
  | restart
  /-- RESTART_EFFECT: the rise of SCS that ends a RESTART's selection (R143, R195). -/
  | restartEffect
  /-- INITIALIZE_JOURNAL, code 17 (R151). -/
  | initializeJournal
  /-- READ_JOURNAL_SLOT, code 18, with a half code and a slot (R137). -/
  | readJournalSlot (half : Byte) (slot : BitVec 16)
  /-- UNKNOWN_COMMAND_FRAME: a complete frame that is no command of its own: its first byte, its operand length byte
  and the operand bytes it was complete with (R188, R190). -/
  | unknownCommandFrame (code : Byte) (length : Byte) (operands : List Byte)
  /-- POLL: the first byte of a POLL selection is complete (R192). -/
  | poll
  /-- RESPONSE_RELEASE: SCS rises after the last byte of the response of a POLL has been shifted out (R192). -/
  | responseRelease
  /-- PWARN_DEASSERTED: the pin PWARN is driven to its deasserted level (R153). -/
  | pwarnDeasserted
  /-- RESETN_ASSERTED: RESETN is driven low (R142). -/
  | resetnAsserted
deriving DecidableEq, Repr

end Sys2Proof
end

