-- ==== Sys2Proof/Decode.lean ====
section
/-! DEFINITION. Sys2Proof/Decode.lean: the words of spec/opcode_table.json. The table gives no row any bits (every row's field
list is empty), so no word spells a command by it; the layouts of chapter 12 are modelled where the part reads them. -/

namespace Sys2Proof

/-- The command that a word spells by the table's bits: none, since the table gives bits to no row. -/
def decodeTableWord (_nbits _w : Nat) : Option Instr := none

end Sys2Proof
end

