-- ==== Sys2Proof/Machine/SymbolCode.lean ====
section
/-! DEFINITION. Sys2Proof/Machine/SymbolCode.lean: the symbol codes that R20 and R22 allow: linear, five check bytes from an
interleave's own 16 data bytes, and six symbols at least between two valid interleaves, so that one or two symbol errors are
corrected and exactly three are told as OVER. The arithmetic of a code is its rows, which the manual does not fix. -/

namespace Sys2Proof.Machine

/-- The check bits that the rows of a code give for a list of data bytes: the exclusive-or of the rows of the data bits that are
set, row 8 j + b for bit b of byte j (R20: linear, and from the interleave's own data bytes alone). -/
def rowSum (row : Nat → BitVec 40) (data : List Byte) : BitVec 40 :=
  (List.range 128).foldl (fun acc k => if (data[k / 8]?.getD 0).getLsbD (k % 8) then acc ^^^ row k else acc) 0

/-- Byte `k` of the check bits. -/
def checkByte (c : BitVec 40) (k : Nat) : Byte := c.extractLsb' (8 * k) 8

/-- The five check bytes. -/
def checkSymbols (c : BitVec 40) : List Byte := (List.range 5).map (checkByte c)

/-- The number of symbols that are not zero. -/
def symbolWeight (symbols : List Byte) : Nat := symbols.countP (· != 0)

/-- A symbol code of R20 and R22: its rows, and the distance that R22's corrections need. By linearity the distance between two
valid interleaves is the number of symbols of a valid interleave that are not zero. -/
structure SymbolCode where
  row : Nat → BitVec 40
  separates : ∀ data : List Byte, data.length = 16 → (∃ b ∈ data, b ≠ 0) →
    6 ≤ symbolWeight data + symbolWeight (checkSymbols (rowSum row data))

end Sys2Proof.Machine
end

