-- ==== Sys2Proof/Config.lean ====
section
/-! DEFINITION. Sys2Proof/Config.lean: what one implementation of the part fixes and the manual leaves open. -/

namespace Sys2Proof.Config

/-- The symbol code of each interleave, 0 to 3, whose arithmetic R22 leaves open ("This manual does not fix the arithmetic of
the code"). R20 fixes that the code is linear and that its five check bytes depend on the interleave's own 16 data bytes alone,
and R22 that one and two symbol errors are corrected and exactly three are OVER: `SymbolCode` says both. A FREE VALUE: it has
no body, so no proof can lean on the rows of the code, and every claim holds for every code of that kind (DESIGN CHOICE:
assumption 1). The argument in brackets says that such a code exists, as a value of a type may be left free only where the type
has one. -/
opaque symbolCode [Inhabited Machine.SymbolCode] (interleave : Nat) : Machine.SymbolCode

end Sys2Proof.Config
end

