-- ==== Sys2Proof/Machine/State.lean ====
section
/-! DEFINITION. Sys2Proof/Machine/State.lean: all the state the manual gives the part, block by block as 0.1 lists the
blocks, the outcomes of a step, and the state right after power-up reset. -/

namespace Sys2Proof.Machine

/-! ### Names shared by the blocks -/

/-- Origins of listings, jobs, map entries and notices (12.1, codes 1 to 9). -/
inductive Origin where
  | hostRead | hostWrite | patrol | promoted | command | replay | maskedWrite | verify | fetch
deriving DecidableEq, Repr

/-- The error count of one interleave (R22). -/
inductive Count where
  | zero | one | two | over
deriving DecidableEq, Repr

/-- The class of a decode (R24). -/
inductive DecodeClass where
  | clean | soft | heavy | lost
deriving DecidableEq, Repr

/-- The decode outcome record (R23). -/
structure DecodeOutcome where
  counts : Vector Count 4
  depth : Count
  total : Nat
  cls : DecodeClass
deriving DecidableEq, Repr

/-- A journal half, or the half a service command names (R120). -/
inductive Half where
  | a | b
deriving DecidableEq, Repr

/-! ### Channel Interface (chapter 3, 4.3) -/

/-- Statuses of a completion (R34). -/
inductive Status where
  | ok | poisoned | outOfRange | notReady | mediaFault
deriving DecidableEq, Repr

/-- The kind of a request with the contents the kind carries (R33). -/
inductive Request where
  | read
  | write (data : LineData)
  | maskedWrite (data : LineData) (mask : BitVec 64)
deriving DecidableEq, Repr

/-- The phase of an execution context (R64). -/
inductive Phase where
  | read | mergeRead | write | verify
deriving DecidableEq, Repr

/-- The execution context of an entry (R64). `lineData` is absent for a READ. -/
structure Context where
  mediaLine : Nat
  phase : Phase
  verifyOwed : Bool
  returned : Bool
  lineData : Option LineData
deriving DecidableEq, Repr

/-- The states of a Request Table entry (3.3). An entry carries its context from the event that takes it to EXECUTING until it
leaves the table (R64); a COMPLETING entry that has never been EXECUTING, a masked write with every flag clear (R41), has none.
A COMPLETING entry carries its status and, for a READ with OK or POISONED, its data (R44). -/
inductive EntryState where
  | waiting
  | held
  | ready
  | executing (ctx : Context)
  | retiring (ctx : Context)
  | completing (status : Status) (data : Option LineData) (ctx : Option Context)
deriving DecidableEq, Repr

/-- One entry of the Request Table (R37). -/
structure Entry where
  tag : Tag
  request : Request
  hostLine : Nat
  arrival : BitVec 32
  state : EntryState
deriving DecidableEq, Repr

/-- The operation of a residual record (R51). -/
inductive ResidualOp where
  | read | mergeRead | write | verify
deriving DecidableEq, Repr

/-- A residual operation record (R51). -/
structure Residual where
  hostLine : Nat
  slot : SlotId
  op : ResidualOp
  returned : Bool
deriving DecidableEq, Repr

/-- The state of the Channel Interface. The table lists its entries in the order of their admission, oldest first: at
most one entry for each tag (R36, R45), whose position in the part is its tag. The list order gives the age of the
entries, which the wrap of the arrival number does not change (R38; DESIGN CHOICE: assumption 11). -/
structure Channel where
  table : List Entry
  arrival : BitVec 32
  residuals : List Residual
deriving DecidableEq, Repr

/-! ### Line Map (chapter 1) -/

/-- A Retirement Map entry (R7). -/
structure MapEntry where
  hostLine : Nat
  spare : Spare
  origin : Origin
  generation : BitVec 32
deriving DecidableEq, Repr

/-- The states of a spare (1.6). -/
inductive SpareState where
  | free | reserved | inUse | discarded
deriving DecidableEq, Repr

/-- The state of the Line Map: the Retirement Map (R7) and the Spare Pool (1.6), one state for each of the 1024 spares. -/
structure LineMap where
  entries : List MapEntry
  spares : Vector SpareState 1024
deriving DecidableEq, Repr

/-! ### Media Controller and Media Arbiter (4.1, 4.2) -/

/-- The operation of a slot record; a write keeps the codeword of its first try and the number of its tries (R54). -/
inductive Operation where
  | read
  | write (codeword : Codeword) (tries : Nat)
deriving DecidableEq, Repr

/-- The owner of a slot (R54). -/
inductive Owner where
  | journal | retirement | patrol
  | host (tag : Tag)
  | residual
deriving DecidableEq, Repr

/-- The record of an ISSUED slot (R54). The timer counts microseconds since the current try was issued. -/
structure SlotRecord where
  op : Operation
  line : Nat
  owner : Owner
  timer : Nat
deriving DecidableEq, Repr

/-- A media operation slot (R54); a QUARANTINED slot holds its quarantine timer, in microseconds, and nothing else. -/
inductive Slot where
  | free
  | issued (record : SlotRecord)
  | quarantined (timer : Nat)
deriving DecidableEq, Repr

/-- The slots, and the passed-over count of the Media Arbiter (R61). The set of waiting claims is held by the claimants
themselves and read from them (`journalClaim`, `retirementClaim`, `hostClaim`, `patrolClaims` in Arbiter.lean; DESIGN
CHOICE: assumption 12). -/
structure Media where
  slots : Vector Slot 8
  passedOver : Nat
deriving DecidableEq, Repr

/-! ### Health Tracker (chapter 5) -/

/-- The reasons of the Suspect List, in rising order (R78). -/
inductive Reason where
  | soft | heavy | deferred | unplaced | lost
deriving DecidableEq, Repr

/-- A Suspect List entry (R76). -/
structure Suspect where
  hostLine : Nat
  reason : Reason
  hits : Nat
  sweep : BitVec 32
  origin : Origin
deriving DecidableEq, Repr

/-! ### Retirement Engine (chapter 6) -/

/-- The kind of a job, with the old spare of a RERETIRE (R94). -/
inductive JobKind where
  | retire
  | reretire (oldSpare : Spare)
deriving DecidableEq, Repr

/-- The data source of a job (R94). -/
inductive DataSource where
  | buffer | fetch
deriving DecidableEq, Repr

/-- The steps of a job (R94). -/
inductive JobState where
  | queued | fetching | placing | checking | recording
deriving DecidableEq, Repr

/-- A job record (R94). -/
structure Job where
  hostLine : Nat
  kind : JobKind
  origin : Origin
  source : DataSource
  buffer : Option LineData
  attempts : Nat
  reserved : Option Spare
  originator : Option Tag
  state : JobState
deriving DecidableEq, Repr

/-! ### Journal Controller (chapters 7 and 8) -/

/-- The journal states (R126). -/
inductive JournalState where
  | replay | idle | appending | compacting | failed
deriving DecidableEq, Repr

/-- The record that an append request carries (R127). -/
inductive AppendRecord where
  | retire (hostLine : Nat) (newSpare : Spare)
  | reretire (hostLine : Nat) (newSpare oldSpare : Spare)
  | discard (spare : Spare)
deriving DecidableEq, Repr

/-- The read that the rebuild awaits (R144 to R147). `headerB` keeps the generation of half A's header when that header
is valid; `bitmapHigh` keeps the 512 flags of the first bitmap line; `record` reads the slot at the tail. -/
inductive RebuildStep where
  | headerA
  | headerB (validA : Option (BitVec 32))
  | bitmapLow
  | bitmapHigh (low : BitVec 512)
  | record
deriving DecidableEq, Repr

/-- One write of a compaction, in the order of R132. -/
inductive CompactionWrite where
  | blankHeader
  | snapshot (slot : Nat) (hostLine : Nat) (spare : Spare)
  | carried (slot : Nat) (record : AppendRecord)
  | bitmapLow
  | bitmapHigh
  | header
deriving DecidableEq, Repr

/-- A compaction under way (R130 to R133): its generation, the DISCARDED flags presented at its start, the number of
records it writes, whether it carries the pending append (R129), and the writes not yet ended, the current one first. -/
structure Compaction where
  generation : BitVec 32
  flags : BitVec 1024
  records : Nat
  carries : Bool
  todo : List CompactionWrite
deriving DecidableEq, Repr

/-- The journal's own media work: what its next or current write or read belongs to. -/
inductive JournalWork where
  | none
  | rebuild (step : RebuildStep)
  | append
  | compact (c : Compaction)
  | formatting (index : Nat)
deriving DecidableEq, Repr

/-- The one claim that the Journal Controller presents (R137): for its own work or for a service read. -/
inductive Presented where
  | work | service
deriving DecidableEq, Repr

/-- The state of the Journal Controller (R125). The free-slot count is 2045 less the tail slot and is computed
(`freeSlots`). `work`, `service` (the slot named by a READ_JOURNAL_SLOT that has not ended) and `presented` (the
operation presented at the Media Arbiter or in flight) are the progress of its single claim (R137; DESIGN CHOICE:
assumption 23). -/
structure Journal where
  state : JournalState
  active : Option Half
  generation : BitVec 32
  tail : Nat
  bitmap : BitVec 1024
  pending : Option AppendRecord
  uncertain : Option Nat
  work : JournalWork
  service : Option (Half × Nat)
  presented : Option Presented
deriving DecidableEq, Repr

/-! ### Start-up and operating-state logic (chapter 8) -/

/-- The operating states (R140). -/
inductive OpState where
  | rebuild | unformatted | halted | ready | quiescing | quiet
deriving DecidableEq, Repr

/-- The halt causes (R140). -/
inductive HaltCause where
  | none | bitmapLost | mediaTimeout | initializeFailed
deriving DecidableEq, Repr

/-! ### Patrol Unit (chapter 9) -/

/-- The patrol modes (R157). -/
inductive PatrolMode where
  | linear | split
deriving DecidableEq, Repr

/-- The five tallies of the current sweep (R157, R167). -/
structure Tallies where
  lines : BitVec 32
  soft : BitVec 32
  heavy : BitVec 32
  lost : BitVec 32
  skipped : BitVec 32
deriving DecidableEq, Repr

/-- The state of a patrol step (R157). WRITING_BACK holds the corrected data, and whether the writeback is issued or its
claim still waits. -/
inductive StepState where
  | waiting
  | reading
  | writingBack (data : LineData) (issued : Bool)
deriving DecidableEq, Repr

/-- The step record (R157). The media line is absent until the read's grant. -/
structure PatrolStep where
  hostLine : Nat
  sweep : BitVec 32
  state : StepState
  mediaLine : Option Nat
  mark : Bool
deriving DecidableEq, Repr

/-- The state of the Patrol Unit (R157); the staged region stands with the settings. The timer counts microseconds. -/
structure Patrol where
  liveStart : Nat
  liveEnd : Nat
  liveMode : PatrolMode
  cursor : Nat
  parity : Bool
  sweep : BitVec 32
  tallies : Tallies
  timer : Nat
  step : Option PatrolStep
deriving DecidableEq, Repr

/-! ### Notice Unit (chapter 10) -/

/-- The fifteen notice kinds, in the order of their codes 1 to 15 (12.6). -/
inductive NoticeKind where
  | retired | retireFailed | poolLow | poolEmpty | dataLost | suspectEvicted | suspectOverflow | sweepDone
  | mediaTimeout | protocol | journalCompacted | journalRepaired | quietReached | rebuildDone | journalFailed
deriving DecidableEq, Repr

/-- A notice record (R173). -/
structure Notice where
  kind : NoticeKind
  sequence : BitVec 16
  partTime : BitVec 32
  hostLine : Option Nat
  spare : Option Spare
  oldSpare : Option Spare
  values : List (BitVec 32)
deriving DecidableEq, Repr

/-- The state of the Notice Unit. `alert` is true while ALERT is ASSERTED. `tick` counts the microseconds since the last
millisecond tick that the unit keeps (R178). -/
structure Notices where
  queue : List Notice
  sequence : BitVec 16
  partTime : BitVec 32
  pace : Nat
  tick : Nat
  alert : Bool
  armed : Bool
deriving DecidableEq, Repr

/-! ### Service Port (chapter 11) -/

/-- The statuses of a response (11.4). -/
inductive ServiceStatus where
  | done | pending | none | busy | badCommand | badLength | badArgument | wrongState | empty
deriving DecidableEq, Repr

/-- A response (R191); its result length is the length of `results`. -/
structure Response where
  status : ServiceStatus
  code : Byte
  results : List Byte
deriving DecidableEq, Repr

/-- The command state, with the code of a pending command or the held response (R189). -/
inductive CommandState where
  | none
  | pending (code : Byte)
  | answered (response : Response)
deriving DecidableEq, Repr

/-- A received command frame (R188). -/
structure Frame where
  code : Byte
  length : Byte
  operands : List Byte
deriving DecidableEq, Repr

/-- The selection in progress (R187): none; one whose command frame has been taken; or a POLL with the response it
shifts out and whether that is the held response (R192). -/
inductive Selection where
  | none
  | frame (frame : Frame)
  | poll (response : Response) (held : Bool)
deriving DecidableEq, Repr

/-- The state of the Service Port. -/
structure Port where
  command : CommandState
  selection : Selection
deriving DecidableEq, Repr

/-! ### Settings and counters (11.8, 11.9) -/

/-- The twelve settings, in index order (R198). Bit k of `urgentMask` stands for the notice kind with code k (R204). -/
structure Settings where
  patrolInterval : Nat
  patrolStart : Nat
  patrolEnd : Nat
  patrolMode : PatrolMode
  autoRetire : Bool
  heavyTotal : Nat
  softLimit : Nat
  verifyWrites : Bool
  trackSoft : Bool
  spareLowMark : Nat
  pacePeriod : Nat
  urgentMask : BitVec 16
deriving DecidableEq, Repr

/-- The seventeen counters, in index order (12.6). -/
structure Counters where
  hostReads : BitVec 32
  hostWrites : BitVec 32
  hostMaskedWrites : BitVec 32
  protocolErrors : BitVec 32
  decodeSoft : BitVec 32
  decodeHeavy : BitVec 32
  decodeLost : BitVec 32
  retirementsCommitted : BitVec 32
  retirementsFailed : BitVec 32
  sparesDiscarded : BitVec 32
  patrolSteps : BitVec 32
  patrolMissed : BitVec 32
  patrolSkipped : BitVec 32
  noticesDropped : BitVec 32
  suspectOverflows : BitVec 32
  mediaTimeouts : BitVec 32
  journalCompactions : BitVec 32
deriving DecidableEq, Repr

/-! ### Pins and outputs -/

/-- The levels of the input pins that the part reads between events: PWARN asserted, RESETN low. -/
structure Pins where
  pwarn : Bool
  resetLow : Bool
deriving DecidableEq, Repr

/-- A completion on the host channel (R34). -/
structure Completion where
  tag : Tag
  status : Status
  data : Option LineData
deriving DecidableEq, Repr

/-- An operation issued on the media channel (4.1). -/
inductive MediaOp where
  | read (id : SlotId) (line : Nat)
  | write (id : SlotId) (line : Nat) (codeword : Codeword)
deriving DecidableEq, Repr

/-- The admission byte of a command selection (R188). -/
inductive Admission where
  | accepted | busy
deriving DecidableEq, Repr

/-- What the part sends out at the latest step, oldest first on each channel (DESIGN CHOICE: assumption 2). -/
structure Outputs where
  completions : List Completion
  mediaOps : List MediaOp
  admission : Option Admission
  pollResponse : Option Response
deriving DecidableEq, Repr

/-! ### The state -/

/-- The state of the part: each block's state, the settings, the counters, the sampled straps, the pins, the outputs of
the latest step, and the queue of commands and events that wait, first in first out (`pending`, the model's own; DESIGN
CHOICE: assumption 22). -/
structure State where
  channel : Channel
  lineMap : LineMap
  media : Media
  suspects : List Suspect
  queue : List Job
  journal : Journal
  opState : OpState
  haltCause : HaltCause
  patrol : Patrol
  notices : Notices
  port : Port
  settings : Settings
  counters : Counters
  straps : BitVec 2
  pins : Pins
  out : Outputs
  pending : List Instr
deriving DecidableEq, Repr

/-- The reasons for which a step could stop with a fault. The part has none: the manual reports every failure of its
media, its journal or its commands by a status, a notice or an operating state, and the part goes on. The one
constructor is raised by no meaning of this model (safe: no claim can rest on it). -/
inductive Fault where
  /-- Raised by no meaning; it stands so that the type is inhabited. Safe. -/
  | noFault
deriving DecidableEq, Repr

/-- The reasons for which a command is refused. -/
inductive Refusal where
  /-- Raised by an arm of `exec` for a command without a meaning; no arm raises it now. Safe: the run stops. -/
  | notModelled (mnemonic : String)
  /-- Raised by UNKNOWN_COMMAND_FRAME for a term that spells no frame of that row: a code with a command of its own and
  that command's length, the POLL code, or operand bytes that are not as many as the length says (`Instr.wf` is
  false; DESIGN CHOICE: assumption 21). Safe: no such event reaches the part, and the run stops. -/
  | illFormed
deriving DecidableEq, Repr

/-! ### Power-up values -/

/-- MediaLines by the sampled MSZ code: 2^22 to 2^25 (R1, table of 1.1). -/
def mediaLinesOf (straps : BitVec 2) : Nat :=
  match straps.toNat with
  | 0 => 4194304 | 1 => 8388608 | 2 => 16777216 | _ => 33554432

/-- HostLines by the sampled MSZ code: MediaLines - 5120 at every code (R1, table of 1.1). -/
def hostLinesOf (straps : BitVec 2) : Nat :=
  match straps.toNat with
  | 0 => 4189184 | 1 => 8383488 | 2 => 16772096 | _ => 33549312

/-- The defaults of the settings (12.5); patrol_end is HostLines - 1 of the sampled straps (R168). -/
def Settings.default (straps : BitVec 2) : Settings :=
  { patrolInterval := 100, patrolStart := 0, patrolEnd := hostLinesOf straps - 1, patrolMode := .linear,
    autoRetire := true, heavyTotal := 3, softLimit := 8, verifyWrites := true, trackSoft := true,
    spareLowMark := 64, pacePeriod := 64, urgentMask := 0x8230#16 }

/-- Every counter at 0 (R200). -/
def Counters.zero : Counters :=
  { hostReads := 0, hostWrites := 0, hostMaskedWrites := 0, protocolErrors := 0, decodeSoft := 0, decodeHeavy := 0,
    decodeLost := 0, retirementsCommitted := 0, retirementsFailed := 0, sparesDiscarded := 0, patrolSteps := 0,
    patrolMissed := 0, patrolSkipped := 0, noticesDropped := 0, suspectOverflows := 0, mediaTimeouts := 0,
    journalCompactions := 0 }

/-- Tallies of 0. -/
def Tallies.zero : Tallies := { lines := 0, soft := 0, heavy := 0, lost := 0, skipped := 0 }

/-- No output. -/
def Outputs.none : Outputs := { completions := [], mediaOps := [], admission := .none, pollResponse := .none }

/-- The Channel Interface after power-up reset and RESTART (R48). -/
def Channel.empty : Channel := { table := [], arrival := 0, residuals := [] }

/-- The Line Map after power-up reset and RESTART (R16). -/
def LineMap.empty : LineMap := { entries := [], spares := Vector.replicate 1024 .free }

/-- The Journal Controller after power-up reset and RESTART (R125), with no work yet. -/
def Journal.empty : Journal :=
  { state := .replay, active := .none, generation := 0, tail := 0, bitmap := 0, pending := .none, uncertain := .none,
    work := .none, service := .none, presented := .none }

/-- The Patrol Unit after power-up reset and RESTART: the staged region adopted as live, the rest at its first values
(R171). -/
def Patrol.initial (st : Settings) : Patrol :=
  { liveStart := st.patrolStart, liveEnd := st.patrolEnd, liveMode := st.patrolMode, cursor := st.patrolStart,
    parity := false, sweep := 0, tallies := .zero, timer := 0, step := .none }

/-- The Notice Unit after power-up reset and RESTART (R185). -/
def Notices.empty : Notices :=
  { queue := [], sequence := 0, partTime := 0, pace := 0, tick := 0, alert := false, armed := false }

/-- The Service Port after power-up reset and RESTART (R201). -/
def Port.empty : Port := { command := .none, selection := .none }

/-- The part right after power-up reset with the straps at MSZ code 0 and PWARN deasserted (DESIGN CHOICE: assumption 3): every
block at its power-up value (8.7), and the rebuild begun with the read of the header of half A, ML 0 (R142, R144), which the
Media Arbiter has granted the FREE slot of lowest identifier (R55, R62). -/
def State.reset : State :=
  { channel := .empty
    lineMap := .empty
    media :=
      { slots := (Vector.replicate 8 Slot.free).set 0 (.issued { op := .read, line := 0, owner := .journal, timer := 0 })
        passedOver := 0 }
    suspects := []
    queue := []
    journal := { Journal.empty with work := .rebuild .headerA, presented := some .work }
    opState := .rebuild
    haltCause := .none
    patrol := .initial (.default 0)
    notices := .empty
    port := .empty
    settings := .default 0
    counters := .zero
    straps := 0
    pins := { pwarn := false, resetLow := false }
    out := { Outputs.none with mediaOps := [.read 0 0] }
    pending := [] }

end Sys2Proof.Machine
end

