-- ==== Sys2Proof/Machine/Operands.lean ====
section
/-! DEFINITION. Sys2Proof/Machine/Operands.lean: the byte layouts and codes of chapter 12: numbers, journal lines, notices,
the codes of every enumerated item, and the operand length and range that each service command takes. -/

namespace Sys2Proof.Machine

/-! ### Numbers: most significant byte first (chapter 12) -/

/-- The bytes of a 16-bit number, most significant first. -/
def be16 (x : BitVec 16) : List Byte := [x.extractLsb' 8 8, x.extractLsb' 0 8]

/-- The bytes of a 32-bit number, most significant first. -/
def be32 (x : BitVec 32) : List Byte :=
  [x.extractLsb' 24 8, x.extractLsb' 16 8, x.extractLsb' 8 8, x.extractLsb' 0 8]

/-- A number that cannot exceed 255 in one byte (12.4). -/
def n8 (n : Nat) : List Byte := [BitVec.ofNat 8 n]

/-- A number that cannot exceed 65535 in two bytes (12.4). -/
def n16 (n : Nat) : List Byte := be16 (BitVec.ofNat 16 n)

/-- Any other number in four bytes (12.4). -/
def n32 (n : Nat) : List Byte := be32 (BitVec.ofNat 32 n)

/-- A flag, clear 0 or set 1 (12.1). -/
def flagCode (b : Bool) : Nat := if b then 1 else 0

/-- "None" or "absent": all ones in the field's width, in bytes (12.4). -/
def absent (width : Nat) : List Byte := List.replicate width 0xFF

/-- Byte `n` of a line. -/
def byteAt (d : LineData) (n : Nat) : Byte := d.toList[n]?.getD 0

/-- The 16-bit number at bytes `n`, `n + 1` of a line. -/
def read16 (d : LineData) (n : Nat) : BitVec 16 := byteAt d n ++ byteAt d (n + 1)

/-- The 32-bit number at bytes `n` to `n + 3` of a line. -/
def read32 (d : LineData) (n : Nat) : BitVec 32 := read16 d n ++ read16 d (n + 2)

/-- The vector whose element at each index below `n` is `f` of the index. -/
def tabulate {α : Type} (n : Nat) (f : Nat → α) : Vector α n := ⟨⟨(List.range n).map f⟩, by simp⟩

/-- A line holding the given bytes from byte 0 on; every byte they do not reach is zero (R21). -/
def lineOf (bytes : List Byte) : LineData := tabulate 64 fun i => bytes[i]?.getD 0

/-! ### Codes (12.1, 12.6) -/

/-- The codes of the origins. -/
def originCode : Origin → Nat
  | .hostRead => 1 | .hostWrite => 2 | .patrol => 3 | .promoted => 4 | .command => 5
  | .replay => 6 | .maskedWrite => 7 | .verify => 8 | .fetch => 9

/-- The codes of the operating states. -/
def opStateCode : OpState → Nat
  | .rebuild => 1 | .unformatted => 2 | .halted => 3 | .ready => 4 | .quiescing => 5 | .quiet => 6

/-- The codes of the halt causes. -/
def haltCauseCode : HaltCause → Nat
  | .none => 0 | .bitmapLost => 1 | .mediaTimeout => 2 | .initializeFailed => 3

/-- The codes of the journal states. -/
def journalStateCode : JournalState → Nat
  | .replay => 1 | .idle => 2 | .appending => 3 | .compacting => 4 | .failed => 5

/-- The codes of the halves; 2 is none. -/
def halfCode : Option Half → Nat
  | some .a => 0 | some .b => 1 | none => 2

/-- The codes of the reasons. -/
def reasonCode : Reason → Nat
  | .soft => 1 | .heavy => 2 | .deferred => 3 | .unplaced => 4 | .lost => 5

/-- The codes of the spare states. -/
def spareStateCode : SpareState → Nat
  | .free => 1 | .reserved => 2 | .inUse => 3 | .discarded => 4

/-- The codes of the job states. -/
def jobStateCode : JobState → Nat
  | .queued => 1 | .fetching => 2 | .placing => 3 | .checking => 4 | .recording => 5

/-- The codes of the job kinds. -/
def jobKindCode : JobKind → Nat
  | .retire => 1 | .reretire _ => 2

/-- The codes of the data sources. -/
def sourceCode : DataSource → Nat
  | .buffer => 1 | .fetch => 2

/-- The codes of the classes. -/
def classCode : DecodeClass → Nat
  | .clean => 0 | .soft => 1 | .heavy => 2 | .lost => 3

/-- The codes of the interleave counts. -/
def countCode : Count → Nat
  | .zero => 0 | .one => 1 | .two => 2 | .over => 3

/-- The codes of the patrol modes. -/
def modeCode : PatrolMode → Nat
  | .linear => 0 | .split => 1

/-- The codes of the notice kinds (12.6). -/
def noticeCode : NoticeKind → Nat
  | .retired => 1 | .retireFailed => 2 | .poolLow => 3 | .poolEmpty => 4 | .dataLost => 5
  | .suspectEvicted => 6 | .suspectOverflow => 7 | .sweepDone => 8 | .mediaTimeout => 9 | .protocol => 10
  | .journalCompacted => 11 | .journalRepaired => 12 | .quietReached => 13 | .rebuildDone => 14 | .journalFailed => 15

/-- The codes of the completion statuses. -/
def statusCode : Status → Nat
  | .ok => 0 | .poisoned => 1 | .outOfRange => 2 | .notReady => 3 | .mediaFault => 4

/-- The codes of the service statuses (12.4). -/
def serviceStatusCode : ServiceStatus → Nat
  | .done => 0 | .pending => 1 | .none => 2 | .busy => 3 | .badCommand => 4
  | .badLength => 5 | .badArgument => 6 | .wrongState => 7 | .empty => 8

/-! ### What the part shifts out or sends, byte by byte (12.2, 12.4) -/

/-- The bytes of a completion (12.2). -/
def completionBytes (c : Completion) : List Byte :=
  n8 c.tag.val ++ n8 (statusCode c.status) ++ (match c.data with | some d => d.toList | none => [])

/-- The admission byte: 165 for ACCEPTED, 3 for BUSY (12.4). -/
def admissionByte : Admission → Byte
  | .accepted => 165 | .busy => 3

/-- The bytes of a response: status, command code, result length, results (12.4). -/
def responseBytes (r : Response) : List Byte :=
  n8 (serviceStatusCode r.status) ++ [r.code] ++ n8 r.results.length ++ r.results

/-- The 41 bytes of a notice in the results of TAKE_NOTICE and PEEK_NOTICE (12.4); an absent field is all ones. -/
def noticeBytes (n : Notice) : List Byte :=
  n8 (noticeCode n.kind) ++ be16 n.sequence ++ be32 n.partTime
    ++ n8 (flagCode n.hostLine.isSome + 2 * flagCode n.spare.isSome + 4 * flagCode n.oldSpare.isSome)
    ++ (match n.hostLine with | some h => n32 h | none => absent 4)
    ++ (match n.spare with | some s => n16 s.val | none => absent 2)
    ++ (match n.oldSpare with | some s => n16 s.val | none => absent 2)
    ++ n8 n.values.length
    ++ (List.range 6).flatMap fun i => match n.values[i]? with | some v => be32 v | none => absent 4

/-! ### Journal lines (12.3) -/

/-- The check value: the sum of the bytes covered, modulo 65536, plus 23130 (12.3). -/
def checkValue (bytes : List Byte) : BitVec 16 :=
  BitVec.ofNat 16 ((bytes.map BitVec.toNat).sum + 23130)

/-- The header marker, hex 4B 4A 52 31 (12.3). -/
def headerMarker : List Byte := [0x4B, 0x4A, 0x52, 0x31]

/-- A journal header line: marker, generation, size code, check value over bytes 0-8 (R121, 12.3). -/
def headerLine (generation : BitVec 32) (straps : BitVec 2) : LineData :=
  let covered := headerMarker ++ be32 generation ++ n8 straps.toNat
  lineOf (covered ++ be16 (checkValue covered))

/-- Whether a line's bytes are those of a valid header for the sampled size code: marker, check value and size code
match, and the generation is not 0 (R121, R145). The class of the decode is judged by `headerOf`. -/
def headerMatches (straps : BitVec 2) (d : LineData) : Bool :=
  (d.toList.take 4 == headerMarker) && (read16 d 9 == checkValue (d.toList.take 9))
    && (byteAt d 8 == BitVec.ofNat 8 straps.toNat) && (read32 d 4 != 0)

/-- The generation of a header read at start-up, when the header is valid (R121, R145). -/
def headerOf (straps : BitVec 2) (o : DecodeOutcome) (d : LineData) : Option (BitVec 32) :=
  if o.cls != .lost && headerMatches straps d then some (read32 d 4) else none

/-- The line of 512 flags, bit k of byte b flagging position 8 b + k (12.3). -/
def bitmapLine (flags : BitVec 512) : LineData := tabulate 64 fun b => flags.extractLsb' (8 * b) 8

/-- The 512 flags that a bitmap line carries (12.3). -/
def bitmapFlags (d : LineData) : BitVec 512 :=
  (List.range 64).foldl (fun acc b => acc ||| ((byteAt d b).setWidth 512 <<< (8 * b))) 0

/-- A journal record as read from a slot (R123, R137, 12.3). -/
structure RawRecord where
  kind : Byte
  generation : BitVec 32
  hostLine : BitVec 32
  newSpare : BitVec 16
  oldSpare : BitVec 16
  check : BitVec 16
  checkMatches : Bool
deriving DecidableEq, Repr

/-- The fields of a record line (12.3). -/
def recordOf (d : LineData) : RawRecord :=
  { kind := byteAt d 0, generation := read32 d 1, hostLine := read32 d 5, newSpare := read16 d 9, oldSpare := read16 d 11
    check := read16 d 13, checkMatches := read16 d 13 == checkValue (d.toList.take 13) }

/-- The line of a record: kind, generation, host line, new spare, old spare and the check value over bytes 0-12, with
zero for the fields that the kind does not use (R123, 12.3). -/
def recordLine (generation : BitVec 32) (r : AppendRecord) : LineData :=
  let covered :=
    match r with
    | .retire h s => n8 1 ++ be32 generation ++ n32 h ++ n16 s.val ++ n16 0
    | .reretire h s o => n8 2 ++ be32 generation ++ n32 h ++ n16 s.val ++ n16 o.val
    | .discard s => n8 3 ++ be32 generation ++ n32 0 ++ n16 s.val ++ n16 0
  lineOf (covered ++ be16 (checkValue covered))

/-- A spare field of a record as a spare index, when it is below 1024 (R123). -/
def spareOf (x : BitVec 16) : Option Spare := if h : x.toNat < 1024 then some ⟨x.toNat, h⟩ else none

/-- The retirement or discard that a whole record of kind RETIRE, RERETIRE or DISCARD names, unless the record is
inconsistent by R123: a host line of HostLines or more, a spare of 1024 or more, or a RERETIRE whose spares are equal. A
DISCARD names no host line (DEDUCED: assumption
15). -/
def consistentRecord (hostLines : Nat) (r : RawRecord) : Option AppendRecord :=
  match r.kind.toNat, spareOf r.newSpare with
  | 1, some s => if r.hostLine.toNat < hostLines then some (.retire r.hostLine.toNat s) else none
  | 2, some s =>
    match spareOf r.oldSpare with
    | some o => if r.hostLine.toNat < hostLines ∧ s ≠ o then some (.reretire r.hostLine.toNat s o) else none
    | none => none
  | 3, some s => some (.discard s)
  | _, _ => none

/-! ### Journal media lines (R3) -/

/-- The first media line of a half: A at ML 0, B at ML 2048. -/
def halfBase : Half → Nat
  | .a => 0 | .b => 2048

/-- The media line of the header. -/
def headerAddress (h : Half) : Nat := halfBase h

/-- The media line of a bitmap line: offset 1 for spares 0-511, offset 2 for spares 512-1023. -/
def bitmapAddress (h : Half) (high : Bool) : Nat := halfBase h + (if high then 2 else 1)

/-- The media line of record slot k: offset 3 + k. -/
def slotAddress (h : Half) (k : Nat) : Nat := halfBase h + 3 + k

/-- The other half. -/
def otherHalf : Half → Half
  | .a => .b | .b => .a

/-! ### Service commands: lengths and operands (12.4) -/

/-- The operand length of the command with this code, if the code names a command (table of 12.4). -/
def commandLength (code : Byte) : Option Nat :=
  match code.toNat with
  | 1 => some 0 | 2 => some 1 | 3 => some 1 | 4 => some 5 | 5 => some 0 | 6 => some 0 | 7 => some 0 | 8 => some 4
  | 9 => some 2 | 10 => some 1 | 11 => some 4 | 12 => some 4 | 13 => some 0 | 14 => some 0 | 15 => some 0 | 16 => some 0
  | 17 => some 0 | 18 => some 3 | _ => none

/-- Rows 2 to 4 of R190: the status that a frame's length and code earn before its operands are looked at. -/
def frameFault (code length : Byte) : Option ServiceStatus :=
  if length.toNat > 16 then some .badLength
  else
    match commandLength code with
    | none => some .badCommand
    | some n => if n = length.toNat then none else some .badLength

/-- Whether a frame belongs to the row UNKNOWN_COMMAND_FRAME: its first byte is not the POLL code, row 2, 3 or 4 of R190
applies to it, and it was complete with as many operand bytes as its length byte says, none above 16 (R188). -/
def isUnknownFrame (code length : Byte) (operands : List Byte) : Bool :=
  code != 0 && (frameFault code length).isSome
    && operands.length == (if length.toNat > 16 then 0 else length.toNat)

/-- The frame of a command with these operand bytes. -/
def frameOf (code : Byte) (operands : List Byte) : Frame :=
  { code := code, length := BitVec.ofNat 8 operands.length, operands := operands }

/-- A half operand: 0 A, 1 B (12.1, R204). -/
def halfOf (code : Byte) : Option Half :=
  match code.toNat with
  | 0 => some .a | 1 => some .b | _ => none

/-- The value of a setting as READ_SETTING and WRITE_SETTING carry it (12.5); none for an index above 11. -/
def settingValue (st : Settings) (index : Byte) : Option (BitVec 32) :=
  match index.toNat with
  | 0 => some (BitVec.ofNat 32 st.patrolInterval)
  | 1 => some (BitVec.ofNat 32 st.patrolStart)
  | 2 => some (BitVec.ofNat 32 st.patrolEnd)
  | 3 => some (BitVec.ofNat 32 (modeCode st.patrolMode))
  | 4 => some (BitVec.ofNat 32 (flagCode st.autoRetire))
  | 5 => some (BitVec.ofNat 32 st.heavyTotal)
  | 6 => some (BitVec.ofNat 32 st.softLimit)
  | 7 => some (BitVec.ofNat 32 (flagCode st.verifyWrites))
  | 8 => some (BitVec.ofNat 32 (flagCode st.trackSoft))
  | 9 => some (BitVec.ofNat 32 st.spareLowMark)
  | 10 => some (BitVec.ofNat 32 st.pacePeriod)
  | 11 => some (st.urgentMask.setWidth 32)
  | _ => none

/-- The settings after a WRITE_SETTING, or none when the index is above 11 or the value is out of range: the ranges of
12.5, the cross-checks of R199 and the codes of R204. -/
def writtenSettings (st : Settings) (hostLines : Nat) (index : Byte) (value : BitVec 32) : Option Settings :=
  let v := value.toNat
  match index.toNat with
  | 0 => if v ≤ 65535 then some { st with patrolInterval := v } else none
  | 1 => if v < hostLines ∧ v ≤ st.patrolEnd then some { st with patrolStart := v } else none
  | 2 => if v < hostLines ∧ st.patrolStart ≤ v then some { st with patrolEnd := v } else none
  | 3 =>
    if v = 0 then some { st with patrolMode := .linear }
    else if v = 1 then some { st with patrolMode := .split } else none
  | 4 => if v ≤ 1 then some { st with autoRetire := v == 1 } else none
  | 5 => if 2 ≤ v ∧ v ≤ 8 then some { st with heavyTotal := v } else none
  | 6 => if 1 ≤ v ∧ v ≤ 255 then some { st with softLimit := v } else none
  | 7 => if v ≤ 1 then some { st with verifyWrites := v == 1 } else none
  | 8 => if v ≤ 1 then some { st with trackSoft := v == 1 } else none
  | 9 => if v ≤ 1023 then some { st with spareLowMark := v } else none
  | 10 => if 8 ≤ v ∧ v ≤ 255 then some { st with pacePeriod := v } else none
  | 11 =>
    if v < 65536 ∧ value.getLsbD 0 = false then some { st with urgentMask := value.setWidth 16 } else none
  | _ => none

/-- The seventeen counters in index order (12.6). -/
def Counters.inOrder (c : Counters) : List (BitVec 32) :=
  [c.hostReads, c.hostWrites, c.hostMaskedWrites, c.protocolErrors, c.decodeSoft, c.decodeHeavy, c.decodeLost,
    c.retirementsCommitted, c.retirementsFailed, c.sparesDiscarded, c.patrolSteps, c.patrolMissed, c.patrolSkipped,
    c.noticesDropped, c.suspectOverflows, c.mediaTimeouts, c.journalCompactions]

end Sys2Proof.Machine
end

