-- ==== Sys2Proof/Machine/ReferenceCode.lean ====
section
/-! DEFINITION. Sys2Proof/Machine/ReferenceCode.lean: a symbol code of R20 and R22 exists. The manual does not fix the
arithmetic of the part's code, and this one is not said to be the part's: it is the witness that the free value of
Config.lean needs, and no claim rests on its rows. -/

namespace Sys2Proof.Machine

/-! ### The witness, over the field of 256 elements -/

/-- A field element times x, modulo x⁸ + x⁴ + x³ + x² + 1. -/
def timesX (a : Byte) : Byte := BitVec.ofNat 8 (2 * a.toNat ^^^ 285 * (a.toNat / 128))

/-- A field element times xⁿ. -/
def timesXPow : Nat → Byte → Byte
  | 0, a => a
  | n + 1, a => timesXPow n (timesX a)

/-- The data with bit `k` alone set. -/
def unitData (k : Nat) : List Byte := (List.range 16).map fun j => if j = k / 8 then 1#8 <<< (k % 8) else 0

/-- The rows of the witness: the remainders of the data bits by the product of X + 1, X + x, X + x², X + x³ and X + x⁴. -/
def referenceRows : List (BitVec 40) :=
  [0xD5AB1C8DEE, 0xB74B3807C1, 0x7396700E9F, 0xE631E01C23, 0xD162DD3846, 0xBFC4A7708C, 0x639553E005, 0xC637A6DD0A,
      0x4375D0CE29, 0x86EABD8152, 0x11C9671FA4, 0x228FCE3E55, 0x4403817CAA, 0x88061FF849, 0x0D0C3EED92, 0x1A187CC739]
    ++ [0xD35E6311FE, 0xBBBCC622E1, 0x6B659144DF, 0xD6CA3F88A3, 0xB1897E0D5B, 0x7F0FFC1AB6, 0xFE1EE53471, 0xE13CD768E2,
      0x1F68DAC965, 0x3ED0A98FCA, 0x7CBD4F0389, 0xF8679E060F, 0xEDCE210C1E, 0xC78142183C, 0x931F843078, 0x3B3E1560F0]
    ++ [0xE2C904A688, 0xD98F08510D, 0xAF0310A21A, 0x4306205934, 0x860C40B268, 0x11188079D0, 0x22301DF2BD, 0x44603AF967,
      0x14DC908FD6, 0x28A53D03B1, 0x50577A067F, 0xA0AEF40CFE, 0x5D41F518E1, 0xBA82F730DF, 0x6919F360A3, 0xD232FBC05B]
    ++ [0x0DC1DCA4B5, 0x1A9FA55577, 0x342357AAEE, 0x6846AE49C1, 0xD08C41929F, 0xBD05823923, 0x670A197246, 0xCE1432E48C,
      0x33FCAC1371, 0x66E54526E2, 0xCCD78A4CD9, 0x85B30998AF, 0x177B122D43, 0x2EF6245A86, 0x5CF148B411, 0xB8FF907522]
    ++ [0x07AA9C4C7C, 0x0E492598F8, 0x1C924A2DED, 0x3839945AC7, 0x707235B493, 0xE0E46A753B, 0xDDD5D4EA76, 0xA7B7B5C9EC,
      0xBE1AE3E3A5, 0x6134DBDB57, 0xC268ABABAE, 0x99D04B4B41, 0x2FBD969682, 0x5E67313119, 0xBCCE626232, 0x6581C4C464]
    ++ [0xEBA6B559A0, 0xCB5177B25D, 0x8BA2EE79BA, 0x0B59C1F269, 0x16B29FF9D2, 0x2C7923EFB9, 0x58F246C36F, 0xB0F98C9BDE,
      0x47FA831B24, 0x8EE91B3648, 0x01CF366C90, 0x02836CD83D, 0x041BD8AD7A, 0x0836AD47F4, 0x106C478EF5, 0x20D88E01F7]
    ++ [0x92BA52067D, 0x3969A40CFA, 0x72D25518E9, 0xE4B9AA30CF, 0xD56F496083, 0xB7DE92C01B, 0x73A1399D36, 0xE65F72276C,
      0x3A02127F54, 0x740424FEA8, 0xE80848E14D, 0xCD1090DF9A, 0x87203DA329, 0x13407A5B52, 0x2680F4B6A4, 0x4C1DF57155]
    ++ [0xC5831CD58E, 0x971B38B701, 0x3336707302, 0x666CE0E604, 0xCCD8DDD108, 0x85ADA7BF10, 0x1747536320, 0x2E8EA6C640,
      0x74933FC61F, 0xE83B7E913E, 0xCD76FC3F7C, 0x87ECE57EF8, 0x13C5D7FCED, 0x2697B3E5C7, 0x4C337BD793, 0x9866F6B33B]

/-- Row `k` of the witness. -/
def referenceRow (k : Nat) : BitVec 40 := referenceRows[k]?.getD 0

/-! ### Its distance -/

/-- A byte as a vector over the field of two elements. -/
def bits (a : Byte) : Fin 8 → ZMod 2 := fun i => if a.getLsbD i.val then 1 else 0

theorem bits_zero : bits 0 = 0 := by
  funext i
  simp [bits]

theorem bits_xor (a b : Byte) : bits (a ^^^ b) = bits a + bits b := by
  funext i
  simp only [bits, BitVec.getLsbD_xor, Pi.add_apply]
  cases a.getLsbD i.val <;> cases b.getLsbD i.val <;> decide

theorem bits_eq_zero {a : Byte} (h : bits a = 0) : a = 0 := by
  apply BitVec.eq_of_getLsbD_eq
  intro i hi
  have := congrFun h ⟨i, hi⟩
  simp only [bits, Pi.zero_apply] at this
  cases hb : a.getLsbD i
  · simp
  · simp [hb] at this

/-- Multiplication by x, on vectors. -/
def mulX : Module.End (ZMod 2) (Fin 8 → ZMod 2) where
  toFun v := fun i => (if i = 0 then 0 else v (i - 1)) + if (0x1D#8).getLsbD i.val then v 7 else 0
  map_add' u v := by
    funext i
    simp only [Pi.add_apply]
    split_ifs <;> ring
  map_smul' c v := by
    funext i
    simp only [Pi.smul_apply, smul_eq_mul, RingHom.id_apply]
    split_ifs <;> ring

theorem bits_timesX : ∀ a : Byte, bits (timesX a) = mulX (bits a) := by decide +kernel

theorem bits_timesXPow (n : Nat) : ∀ a : Byte, bits (timesXPow n a) = (mulX ^ n) (bits a) := by
  induction n with
  | zero => intro a; rfl
  | succ n ih =>
    intro a
    rw [timesXPow, ih, bits_timesX, pow_succ]
    rfl

theorem bits_surjective (v : Fin 8 → ZMod 2) : ∃ a, bits a = v := by
  refine ⟨BitVec.ofFnLE fun i => decide (v i = 1), ?_⟩
  funext i
  have : ∀ z : ZMod 2, (if z = 1 then (1 : ZMod 2) else 0) = z := by decide
  simpa [bits] using this (v i)

/-- Whether none of `n` bytes from `b` on, each x times the one before, is `a`. -/
def avoids (a : Byte) : Nat → Byte → Bool
  | 0, _ => true
  | n + 1, b => b != a && avoids a n (timesX b)

theorem avoids_timesXPow {a : Byte} (n : Nat) : ∀ b, avoids a n b = true → ∀ m < n, timesXPow m b ≠ a := by
  induction n with
  | zero => intro _ _ m hm; omega
  | succ n ih =>
    intro b hb m hm
    rw [avoids, Bool.and_eq_true, bne_iff_ne] at hb
    match m with
    | 0 => exact hb.1
    | m + 1 => exact ih _ hb.2 m (by omega)

/-- Fewer than 21 multiplications by x lead no byte but zero back to itself. -/
theorem timesXPow_ne (d : Nat) (h : d ≤ 20) (h0 : d ≠ 0) (a : Byte) (ha : timesXPow d a = a) : a = 0 := by
  have all : ∀ a : Byte, a = 0 ∨ avoids a 20 (timesX a) = true := by decide +kernel
  obtain ⟨n, rfl⟩ := Nat.exists_eq_succ_of_ne_zero h0
  exact (all a).resolve_right fun hn => avoids_timesXPow 20 _ hn n (by omega) ha

theorem mulX_pow_injective (n : Nat) : Function.Injective (mulX ^ n) := by
  have one : Function.Injective mulX := by
    refine (injective_iff_map_eq_zero mulX).2 fun v hv => ?_
    obtain ⟨a, rfl⟩ := bits_surjective v
    have zero : ∀ a : Byte, timesX a = 0 → a = 0 := by decide +kernel
    rw [zero a (bits_eq_zero (by rw [bits_timesX, hv])), bits_zero]
  induction n with
  | zero => exact Function.injective_id
  | succ n ih =>
    rw [pow_succ]
    exact ih.comp one

/-- The difference of two powers of x, at different places of an interleave, divides no zero. -/
theorem mulX_pow_add_ne {p q : Nat} (hp : p < 21) (hq : q < 21) (h : p ≠ q) {v : Fin 8 → ZMod 2}
    (hv : (mulX ^ p) v + (mulX ^ q) v = 0) : v = 0 := by
  have key : ∀ {p q : Nat}, q < 21 → p < q → (mulX ^ p) v = (mulX ^ q) v → v = 0 := by
    intro p q hq hlt he
    obtain ⟨a, rfl⟩ := bits_surjective v
    have same : (mulX ^ (q - p)) (bits a) = bits a := by
      apply mulX_pow_injective p
      rw [← Module.End.mul_apply, ← pow_add, he]
      congr 2
      omega
    have : bits (timesXPow (q - p) a ^^^ a) = 0 := by
      rw [bits_xor, bits_timesXPow, same]
      funext i
      exact CharTwo.add_self_eq_zero _
    rw [timesXPow_ne (q - p) (by omega) (by omega) a (by simpa using bits_eq_zero this), bits_zero]
  have he : (mulX ^ p) v = (mulX ^ q) v := by
    funext i
    have := congrFun hv i
    exact CharTwo.add_eq_zero.1 this
  rcases Nat.lt_or_gt_of_ne h with hlt | hlt
  · exact key hq hlt he
  · exact key hp hlt he.symm

/-- As many power sums as places determine the symbols at these places. -/
theorem symbols_eq_zero (n : Nat) : ∀ (S : Finset Nat), S ⊆ Finset.range 21 → S.card = n → ∀ v : Nat → Fin 8 → ZMod 2,
    (∀ j < n, ∑ q ∈ S, (mulX ^ (q * j)) (v q) = 0) → ∀ q ∈ S, v q = 0 := by
  induction n with
  | zero =>
    intro S _ hc v _ q hq
    rw [Finset.card_eq_zero.1 hc] at hq
    simp at hq
  | succ n ih =>
    intro S hS hc v hv
    obtain ⟨p, hp⟩ := Finset.card_pos.1 (by omega : 0 < S.card)
    have sub : S.erase p ⊆ Finset.range 21 := (Finset.erase_subset p S).trans hS
    have rest : ∀ q ∈ S.erase p, v q = 0 := by
      intro q hq
      have := ih (S.erase p) sub (by rw [Finset.card_erase_of_mem hp]; omega)
        (fun q => (mulX ^ q) (v q) + (mulX ^ p) (v q)) ?_ q hq
      · exact mulX_pow_add_ne (Finset.mem_range.1 (sub hq)) (Finset.mem_range.1 (hS hp)) (Finset.ne_of_mem_erase hq) this
      · intro j hj
        have upper := hv (j + 1) (by omega)
        have lower := congrArg (mulX ^ p) (hv j (by omega))
        rw [map_sum, map_zero] at lower
        rw [← Finset.add_sum_erase _ _ hp] at upper lower
        have shift : ∀ q a : Nat, (mulX ^ a) ((mulX ^ (q * j)) (v q)) = (mulX ^ (q * j)) ((mulX ^ a) (v q)) := by
          intro q a
          rw [← Module.End.mul_apply, ← Module.End.mul_apply, ← pow_add, ← pow_add, Nat.add_comm]
        have step : ∀ q : Nat, (mulX ^ (q * (j + 1))) (v q) = (mulX ^ (q * j)) ((mulX ^ q) (v q)) := by
          intro q
          rw [← Module.End.mul_apply, ← pow_add]
          rfl
        simp only [map_add, Finset.sum_add_distrib]
        simp only [step, shift] at upper lower
        have : ∀ a b c : Fin 8 → ZMod 2, a + b = 0 → a + c = 0 → b + c = 0 := by
          intro a b c hb hc
          funext i
          have h1 := congrFun hb i
          have h2 := congrFun hc i
          simp only [Pi.add_apply, Pi.zero_apply] at *
          generalize a i = x at *
          generalize b i = y at *
          generalize c i = z at *
          revert x y z
          decide
        exact this _ _ _ upper lower
    intro q hq
    by_cases hqp : q = p
    · subst hqp
      have := hv 0 (by omega)
      rw [← Finset.add_sum_erase _ _ hq, Finset.sum_eq_zero fun r hr => by rw [rest r hr, map_zero], add_zero] at this
      simpa using this
    · exact rest q (Finset.mem_erase.2 ⟨hqp, hq⟩)

/-- The symbol at place `q` of an interleave with these check bits: the coefficient of the q-th power. -/
def symbolAt (data : List Byte) (c : BitVec 40) (q : Nat) : Byte :=
  if q < 5 then checkByte c (4 - q) else data[20 - q]?.getD 0

theorem checkByte_xor (a b : BitVec 40) (k : Nat) : checkByte (a ^^^ b) k = checkByte a k ^^^ checkByte b k := by
  simp [checkByte, BitVec.extractLsb'_xor]

/-- The power sum `j` of the interleave with these data and check bytes. -/
def powerSum (data : List Byte) (c : BitVec 40) (j : Nat) : Fin 8 → ZMod 2 :=
  ∑ q ∈ Finset.range 21, (mulX ^ (q * j)) (bits (symbolAt data c q))

/-- The power sum of `n` symbols, from the lowest place on. -/
def horner (j : Nat) : Nat → (Nat → Byte) → Byte
  | 0, _ => 0
  | n + 1, f => f 0 ^^^ timesXPow j (horner j n fun q => f (q + 1))

theorem bits_horner (j n : Nat) : ∀ f : Nat → Byte,
    bits (horner j n f) = ∑ q ∈ Finset.range n, (mulX ^ (q * j)) (bits (f q)) := by
  induction n with
  | zero => exact fun f => bits_zero
  | succ n ih =>
    intro f
    rw [horner, bits_xor, bits_timesXPow, ih, map_sum, Finset.sum_range_succ', add_comm]
    congr 1
    · refine Finset.sum_congr rfl fun q _ => ?_
      rw [← Module.End.mul_apply, ← pow_add, Nat.succ_mul, Nat.add_comm]
    · simp

/-- The power sums of the interleaves with one data bit set, by evaluation. -/
theorem unit_symbols_sum : ∀ k < 128, ∀ j < 5, horner j 21 (symbolAt (unitData k) (referenceRow k)) = 0 := by
  decide +kernel

theorem unit_powerSum {k j : Nat} (hk : k < 128) (hj : j < 5) : powerSum (unitData k) (referenceRow k) j = 0 := by
  rw [powerSum, ← bits_horner, unit_symbols_sum k hk j hj, bits_zero]

/-- A check byte of the data is the sum of those of its set bits. -/
theorem bits_checkByte_rowSum (row : Nat → BitVec 40) (data : List Byte) (k : Nat) :
    bits (checkByte (rowSum row data) k) =
      ∑ b ∈ Finset.range 128, if (data[b / 8]?.getD 0).getLsbD (b % 8) then bits (checkByte (row b) k) else 0 := by
  have step : ∀ (l : List Nat) (a : BitVec 40),
      bits (checkByte (l.foldl (fun acc b =>
        if (data[b / 8]?.getD 0).getLsbD (b % 8) then acc ^^^ row b else acc) a) k) =
        bits (checkByte a k) +
          (l.map fun b => if (data[b / 8]?.getD 0).getLsbD (b % 8) then bits (checkByte (row b) k) else 0).sum := by
    intro l
    induction l with
    | nil => simp
    | cons b l ih =>
      intro a
      rw [List.foldl_cons, ih, List.map_cons, List.sum_cons, ← add_assoc]
      congr 1
      split
      · rw [checkByte_xor, bits_xor]
      · rw [add_zero]
  have := step (List.range 128) 0
  rw [show checkByte 0 k = 0 by simp [checkByte], bits_zero, zero_add] at this
  exact this

theorem bits_unitData (b j : Nat) (hj : j < 16) :
    bits ((unitData b)[j]?.getD 0) = fun i => if b = 8 * j + i.val then 1 else 0 := by
  funext i
  have hi := i.isLt
  have entry : (unitData b)[j]?.getD 0 = if j = b / 8 then 1#8 <<< (b % 8) else 0 := by
    simp [unitData, hj]
  rw [entry]
  by_cases h : j = b / 8
  · have : ∀ m < 8, ∀ n < 8, (1#8 <<< m).getLsbD n = decide (m = n) := by decide
    simp only [bits, if_pos h, this (b % 8) (by omega) i.val hi, decide_eq_true_eq]
    exact if_congr (by omega) rfl rfl
  · rw [if_neg h, if_neg (by omega)]
    simp [bits]

/-- A data byte is the sum of those of its set bits. -/
theorem bits_dataByte (data : List Byte) {j : Nat} (hj : j < 16) :
    bits (data[j]?.getD 0) =
      ∑ b ∈ Finset.range 128,
        if (data[b / 8]?.getD 0).getLsbD (b % 8) then bits ((unitData b)[j]?.getD 0) else 0 := by
  funext i
  have hi := i.isLt
  rw [Finset.sum_apply, Finset.sum_eq_single (8 * j + i.val)]
  · rw [show (8 * j + i.val) / 8 = j by omega, show (8 * j + i.val) % 8 = i.val by omega, bits_unitData _ _ hj]
    by_cases h : (data[j]?.getD 0).getLsbD i.val
    · simp only [bits, if_pos h, if_true]
    · simp only [bits, if_neg h, Pi.zero_apply]
  · intro b _ hne
    rw [bits_unitData _ _ hj]
    split
    · exact if_neg hne
    · rfl
  · intro h
    exact absurd (Finset.mem_range.2 (by omega)) h

/-- The power sums of every interleave of the witness are zero. -/
theorem powerSum_eq_zero (data : List Byte) {j : Nat} (hj : j < 5) :
    powerSum data (rowSum referenceRow data) j = 0 := by
  have symbol : ∀ q ∈ Finset.range 21, bits (symbolAt data (rowSum referenceRow data) q) =
      ∑ b ∈ Finset.range 128,
        if (data[b / 8]?.getD 0).getLsbD (b % 8) then bits (symbolAt (unitData b) (referenceRow b) q) else 0 := by
    intro q hq
    unfold symbolAt
    split
    · exact bits_checkByte_rowSum _ _ _
    · exact bits_dataByte data (by have := Finset.mem_range.1 hq; omega)
  have move : powerSum data (rowSum referenceRow data) j =
      ∑ b ∈ Finset.range 128,
        if (data[b / 8]?.getD 0).getLsbD (b % 8) then powerSum (unitData b) (referenceRow b) j else 0 := by
    rw [powerSum, Finset.sum_congr rfl fun q hq => by rw [symbol q hq, map_sum], Finset.sum_comm]
    refine Finset.sum_congr rfl fun b _ => ?_
    split
    · rfl
    · simp
  rw [move]
  refine Finset.sum_eq_zero fun b hb => ?_
  rw [unit_powerSum (Finset.mem_range.1 hb) hj]
  exact ite_self _

/-- The places of an interleave that are not zero are as many as its symbols that are not zero. -/
theorem card_places (data : List Byte) (h : data.length = 16) (c : BitVec 40) :
    ((Finset.range 21).filter fun q => symbolAt data c q ≠ 0).card =
      symbolWeight data + symbolWeight (checkSymbols c) := by
  match data, h with
  | [a0, a1, a2, a3, a4, a5, a6, a7, a8, a9, a10, a11, a12, a13, a14, a15], _ =>
    rw [Finset.card_eq_sum_ones, Finset.sum_filter]
    simp only [Finset.sum_range_succ, Finset.sum_range_zero, symbolAt, symbolWeight, checkSymbols,
      List.countP_cons, List.countP_nil, List.range_succ, List.range_zero, List.map_append, List.map_cons, List.map_nil,
      List.countP_append, bne_iff_ne]
    simp
    ring

/-- A code of R20 and R22. -/
def referenceCode : SymbolCode where
  row := referenceRow
  separates data h := by
    rintro ⟨b, hb, hne⟩
    by_contra hlt
    rw [← card_places data h] at hlt
    obtain ⟨j, hj, hjb⟩ := List.getElem_of_mem hb
    have place : 20 - j ∈ (Finset.range 21).filter fun q => symbolAt data (rowSum referenceRow data) q ≠ 0 := by
      rw [Finset.mem_filter, Finset.mem_range]
      refine ⟨by omega, ?_⟩
      rw [symbolAt, if_neg (by omega), show 20 - (20 - j) = j by omega, List.getElem?_eq_getElem hj]
      simpa [hjb] using hne
    have zero := symbols_eq_zero _ _ (Finset.filter_subset _ _) rfl
      (fun q => bits (symbolAt data (rowSum referenceRow data) q)) (fun i hi => by
        rw [← powerSum_eq_zero data (j := i) (by omega), powerSum]
        refine Finset.sum_subset (Finset.filter_subset _ _) fun q hq hn => ?_
        rw [Finset.mem_filter, not_and, not_not] at hn
        rw [hn hq, bits_zero, map_zero]) _ place
    exact (Finset.mem_filter.1 place).2 (bits_eq_zero zero)

end Sys2Proof.Machine
end

