-- ==== Sys2Proof/Machine/Integrity.lean ====
section
/-! DEFINITION. Sys2Proof/Machine/Integrity.lean: the Integrity Unit of chapter 2: interleaves, encoding, decoding within
two symbols, and classification. The code is the free value `Config.symbolCode` (DESIGN CHOICE: assumption
1). -/

namespace Sys2Proof.Machine

/-- One interleave of a codeword: 16 data bytes, then 5 check bytes (R19). -/
abbrev Interleave := Vector Byte 21

/-- The code of interleave `i`: some code of R20 and R22, of which the witness says no more than that there is one. -/
def interleaveCode (i : Nat) : SymbolCode := @Config.symbolCode ⟨referenceCode⟩ i

/-- The check bits of interleave `i` for its data bytes, byte `k` of the check in bits 8 k to 8 k + 7 (R20). -/
def checkBits (i : Nat) (data : List Byte) : BitVec 40 := rowSum (interleaveCode i).row data

/-- The data bytes of interleave `i` of a line: indices i, i + 4, up to i + 60 (R19). -/
def interleaveData (d : LineData) (i : Nat) : List Byte := (List.range 16).map fun j => byteAt d (i + 4 * j)

/-- Encoding: the 64 data bytes, then the five check bytes of each interleave in turn (R19, R20). -/
def encode (d : LineData) : Codeword :=
  tabulate 84 fun n =>
    if n < 64 then byteAt d n
    else checkByte (checkBits ((n - 64) / 5) (interleaveData d ((n - 64) / 5))) ((n - 64) % 5)

/-- Interleave `i` of a codeword (R19). -/
def interleaveOf (w : Codeword) (i : Nat) : Interleave :=
  tabulate 21 fun p => (w.toList[if p < 16 then i + 4 * p else 64 + 5 * i + (p - 16)]?).getD 0

/-- Whether the 21 symbols are a valid interleave: the check bytes are those of the data bytes. -/
def isValid (i : Nat) (v : Interleave) : Bool :=
  let c := checkBits i (v.toList.take 16)
  v.toList.drop 16 == checkSymbols c

/-- The words that differ from `v` in exactly one symbol. -/
def singleChanges (v : Interleave) : List Interleave :=
  (List.finRange 21).flatMap fun (p : Fin 21) =>
    (List.range 255).map fun e => v.set p.val (v[p.val] ^^^ BitVec.ofNat 8 (e + 1))

/-- Decoding one interleave: the count, and the symbols corrected to the nearest valid interleave within two symbols; OVER
and the symbols as read where there is none (2.2, R22). -/
def decodeInterleave (i : Nat) (v : Interleave) : Count × Interleave :=
  if isValid i v then (.zero, v)
  else
    match (singleChanges v).find? (isValid i) with
    | some u => (.one, u)
    | none =>
      match (singleChanges v).findSome? fun u => (singleChanges u).find? (isValid i) with
      | some u => (.two, u)
      | none => (.over, v)

/-- The corrections that a count stands for; OVER contributes nothing to the total (R23). -/
def countCorrections : Count → Nat
  | .zero => 0 | .one => 1 | .two => 2 | .over => 0

/-- The larger of two counts, OVER being the largest (R23). -/
def countMax (a b : Count) : Count := if countCode a ≤ countCode b then b else a

/-- The class of a decode, the first case that applies (R24). -/
def classify (heavyTotal : Nat) (depth : Count) (total : Nat) : DecodeClass :=
  if depth = .over then .lost
  else if total = 0 then .clean
  else if depth = .two ∨ heavyTotal ≤ total then .heavy
  else .soft

/-- The decode outcome record of four counts (R23, R24). -/
def outcomeOf (heavyTotal : Nat) (counts : Vector Count 4) : DecodeOutcome :=
  let depth := counts.toList.foldl countMax .zero
  let total := (counts.toList.map countCorrections).sum
  { counts := counts, depth := depth, total := total, cls := classify heavyTotal depth total }

/-- Interleave `i` of a codeword, decoded. -/
def decodedInterleave (w : Codeword) (i : Nat) : Count × Interleave := decodeInterleave i (interleaveOf w i)

/-- The outcome record of a decode with this value of heavy_total (R22 to R25). -/
def decodeOutcome (heavyTotal : Nat) (w : Codeword) : DecodeOutcome :=
  outcomeOf heavyTotal (tabulate 4 fun i => (decodedInterleave w i).1)

/-- The 64 bytes delivered: corrected data, or poisoned data with each OVER interleave as read (R26, R27). -/
def decodeData (w : Codeword) : LineData :=
  tabulate 64 fun n => ((decodedInterleave w (n % 4)).2.toList[n / 4]?).getD 0

/-- The decode counters after a decode of this class (R30). -/
def countDecode (c : DecodeClass) (s : State) : State :=
  match c with
  | .clean => s
  | .soft => { s with counters := { s.counters with decodeSoft := satInc s.counters.decodeSoft } }
  | .heavy => { s with counters := { s.counters with decodeHeavy := satInc s.counters.decodeHeavy } }
  | .lost => { s with counters := { s.counters with decodeLost := satInc s.counters.decodeLost } }

end Sys2Proof.Machine
end

