-- ==== Sys2Proof/Machine/Flags.lean ====
section
/-! DEFINITION. Sys2Proof/Machine/Flags.lean: the Notice Unit's shared operations: an alert request with the armed flag
(R180), and the raising of a notice of each kind (R173 to R175, R182). -/

namespace Sys2Proof.Machine

/-- An alert request (R180): it asserts a RELEASED line and sets the armed flag of an ASSERTED one. -/
def alertRequest (s : State) : State :=
  if s.notices.alert then { s with notices := { s.notices with armed := true } }
  else { s with notices := { s.notices with alert := true } }

/-- Whether a kind is in urgent_mask (R182). -/
def isUrgent (mask : BitVec 16) (k : NoticeKind) : Bool := mask.getLsbD (noticeCode k)

/-- The notice record that a raising makes (R173, R174). -/
def noticeOf (s : State) (k : NoticeKind) (hostLine : Option Nat) (spare oldSpare : Option Spare)
    (values : List (BitVec 32)) : Notice :=
  { kind := k, sequence := s.notices.sequence, partTime := s.notices.partTime, hostLine := hostLine, spare := spare
    oldSpare := oldSpare, values := values }

/-- The raising of a notice: it takes the sequence and the part time, enters a queue of fewer than 32 notices and makes
its alert request when its kind is urgent (R174, R182), or is dropped from a full queue and counted (R175). -/
def raise (k : NoticeKind) (hostLine : Option Nat) (spare oldSpare : Option Spare) (values : List (BitVec 32))
    (s : State) : State :=
  if s.notices.queue.length < 32 then
    let entered :=
      { s with
        notices :=
          { s.notices with
            sequence := s.notices.sequence + 1
            queue := s.notices.queue ++ [noticeOf s k hostLine spare oldSpare values] } }
    if isUrgent s.settings.urgentMask k then alertRequest entered else entered
  else
    { s with
      notices := { s.notices with sequence := s.notices.sequence + 1 }
      counters := { s.counters with noticesDropped := satInc s.counters.noticesDropped } }

/-- A kind-dependent value given as a number. -/
def val (n : Nat) : BitVec 32 := BitVec.ofNat 32 n

/-- RETIRED: host line, spare, old spare for a RERETIRE, origin (R109). -/
def raiseRetired (hostLine : Nat) (spare : Spare) (oldSpare : Option Spare) (o : Origin) (s : State) : State :=
  raise .retired (some hostLine) (some spare) oldSpare [val (originCode o)] s

/-- RETIRE_FAILED with cause ATTEMPTS (R110). -/
def raiseRetireFailedAttempts (hostLine : Nat) (s : State) : State :=
  raise .retireFailed (some hostLine) none none [val 1] s

/-- RETIRE_FAILED with cause JOURNAL (R112). -/
def raiseRetireFailedJournal (hostLine : Nat) (s : State) : State :=
  raise .retireFailed (some hostLine) none none [val 2] s

/-- POOL_LOW with the FREE count (R15). -/
def raisePoolLow (freeCount : Nat) (s : State) : State := raise .poolLow none none none [val freeCount] s

/-- POOL_EMPTY with the host line (R110). -/
def raisePoolEmpty (hostLine : Nat) (s : State) : State := raise .poolEmpty (some hostLine) none none [] s

/-- DATA_LOST with the host line and the origin of the source (R84). -/
def raiseDataLost (hostLine : Nat) (o : Origin) (s : State) : State :=
  raise .dataLost (some hostLine) none none [val (originCode o)] s

/-- SUSPECT_EVICTED with the evicted host line (R80). -/
def raiseSuspectEvicted (hostLine : Nat) (s : State) : State := raise .suspectEvicted (some hostLine) none none [] s

/-- SUSPECT_OVERFLOW with the host line (R80). -/
def raiseSuspectOverflow (hostLine : Nat) (s : State) : State := raise .suspectOverflow (some hostLine) none none [] s

/-- SWEEP_DONE with the new sweep number and the five tallies (R167). -/
def raiseSweepDone (sweep : BitVec 32) (t : Tallies) (s : State) : State :=
  raise .sweepDone none none none [sweep, t.lines, t.soft, t.heavy, t.lost, t.skipped] s

/-- MEDIA_TIMEOUT with the media line and the operation: 1 MEDIA_READ, 2 MEDIA_WRITE (R58, 12.1). -/
def raiseMediaTimeout (line : Nat) (op : Operation) (s : State) : State :=
  raise .mediaTimeout none none none [val line, val (match op with | .read => 1 | .write _ _ => 2)] s

/-- PROTOCOL with the tag and the cause TAG_IN_USE, 1 (R35). -/
def raiseProtocol (tag : Tag) (s : State) : State := raise .protocol none none none [val tag.val, val 1] s

/-- JOURNAL_COMPACTED with the new generation and the records written (R133). -/
def raiseJournalCompacted (generation : BitVec 32) (records : Nat) (s : State) : State :=
  raise .journalCompacted none none none [generation, val records] s

/-- JOURNAL_REPAIRED with the slot at which replay stopped (R148). -/
def raiseJournalRepaired (slot : Nat) (s : State) : State := raise .journalRepaired none none none [val slot] s

/-- The causes of JOURNAL_FAILED with their codes (R134, 12.1). -/
inductive FailCause where
  | programFail | timeout | generationLimit
deriving DecidableEq, Repr

/-- The codes of the causes of JOURNAL_FAILED (12.1). -/
def failCauseCode : FailCause → Nat
  | .programFail => 1 | .timeout => 2 | .generationLimit => 3

/-- JOURNAL_FAILED with the cause and the uncertain slot, all ones for none (R134, 12.4). -/
def raiseJournalFailed (cause : FailCause) (uncertain : Option Nat) (s : State) : State :=
  raise .journalFailed none none none
    [val (failCauseCode cause), match uncertain with | some k => val k | none => BitVec.allOnes 32] s

/-- QUIET_REACHED (R154). -/
def raiseQuietReached (s : State) : State := raise .quietReached none none none [] s

/-- The number of spares in a state (R11). -/
def spareCount (st : SpareState) (s : State) : Nat := s.lineMap.spares.toList.count st

/-- REBUILD_DONE with the outcome code (1 READY, 2 UNFORMATTED, 3 HALTED), the map entries, the DISCARDED count and the
active generation, taken after the last effect of the rebuild (R149). -/
def raiseRebuildDone (outcome : Nat) (s : State) : State :=
  raise .rebuildDone none none none
    [val outcome, val s.lineMap.entries.length, val (spareCount .discarded s), s.journal.generation] s

end Sys2Proof.Machine
end

