-- ==== Sys2Proof/Machine/Ops.lean ====
section
/-! DEFINITION. Sys2Proof/Machine/Ops.lean: the named operations over the state that several blocks share: geometry and
translation, the pool, the slots, the Request Table, and the locks as they are read from the Retirement Queue. -/

namespace Sys2Proof.Machine

/-! ### Geometry and translation (chapter 1) -/

/-- HostLines of the sampled straps (R1). -/
def hostLines (s : State) : Nat := hostLinesOf s.straps

/-- The Retirement Map entry of a host line (R5). -/
def mapEntry (s : State) (hostLine : Nat) : Option MapEntry := s.lineMap.entries.find? (·.hostLine == hostLine)

/-- The media line of a spare: ML 4096 + spare index (1.2). -/
def spareAddress (spare : Spare) : Nat := 4096 + spare.val

/-- The media line that serves a host line now (R5). -/
def translate (s : State) (hostLine : Nat) : Nat :=
  match mapEntry s hostLine with
  | some e => spareAddress e.spare
  | none => 5120 + hostLine

/-- The state of a spare. -/
def spareState (s : State) (spare : Spare) : SpareState := s.lineMap.spares[spare.val]

/-- A spare takes a state. -/
def setSpare (spare : Spare) (st : SpareState) (s : State) : State :=
  { s with lineMap := { s.lineMap with spares := s.lineMap.spares.set spare.val st } }

/-- The FREE spare with the lowest spare index, if there is one (R12). -/
def lowestFree (s : State) : Option Spare := (List.finRange 1024).find? fun i => spareState s i == .free

/-- The entry of a spare in the Retirement Map. -/
def entryOfSpare (s : State) (spare : Spare) : Option MapEntry := s.lineMap.entries.find? (·.spare == spare)

/-- The map in increasing order of spare index, one entry for each IN_USE spare (R10). -/
def presentedEntries (s : State) : List MapEntry := (List.finRange 1024).filterMap (entryOfSpare s)

/-- The DISCARDED flag of every spare (R10). -/
def discardFlags (s : State) : BitVec 1024 :=
  (List.finRange 1024).foldl (fun acc i => if spareState s i == .discarded then acc ||| BitVec.twoPow 1024 i.val else acc) 0

/-- A map entry made, or changed where its host line already has one (R9, R17). -/
def putEntry (e : MapEntry) (s : State) : State :=
  { s with
    lineMap :=
      { s.lineMap with
        entries :=
          if (mapEntry s e.hostLine).isSome then s.lineMap.entries.map fun x => if x.hostLine = e.hostLine then e else x
          else s.lineMap.entries ++ [e] } }

/-! ### Locks and residual operations -/

/-- A host line is locked while a job for it is in the Retirement Queue (R95). -/
def isLocked (s : State) (hostLine : Nat) : Bool := s.queue.any (·.hostLine == hostLine)

/-- Whether a residual operation for the host line is in flight (R51). -/
def hasResidual (s : State) (hostLine : Nat) : Bool := s.channel.residuals.any (·.hostLine == hostLine)

/-- Whether a residual write for the host line is in flight (R51). -/
def hasResidualWrite (s : State) (hostLine : Nat) : Bool :=
  s.channel.residuals.any fun r => r.hostLine == hostLine && r.op == .write

/-! ### Slots (4.1) -/

/-- A slot takes a state. -/
def setSlot (id : SlotId) (slot : Slot) (s : State) : State :=
  { s with media := { s.media with slots := s.media.slots.set id.val slot } }

/-- Whether an ISSUED slot has this owner. -/
def inFlight (s : State) (o : Owner) : Bool :=
  s.media.slots.toList.any fun
    | .issued r => r.owner == o
    | _ => false

/-- The FREE slot with the lowest identifier, if there is one (R55). -/
def lowestFreeSlot (s : State) : Option SlotId := (List.finRange 8).find? fun i => s.media.slots[i.val] == .free

/-- An operation goes out on the media channel. -/
def emitMedia (op : MediaOp) (s : State) : State := { s with out := { s.out with mediaOps := s.out.mediaOps ++ [op] } }

/-! ### The Request Table (chapter 3) -/

/-- The entry that holds a tag (R36). -/
def entryOf (s : State) (tag : Tag) : Option Entry := s.channel.table.find? (·.tag == tag)

/-- The entry that holds a tag is changed; the others stay. -/
def updateEntry (tag : Tag) (f : Entry → Entry) (s : State) : State :=
  { s with
    channel := { s.channel with table := s.channel.table.map fun e => if e.tag = tag then f e else e } }

/-- The entry that holds a tag takes a state. -/
def setEntryState (tag : Tag) (st : EntryState) (s : State) : State := updateEntry tag (fun e => { e with state := st }) s

/-- Whether a request writes: WRITE or MASKED_WRITE. -/
def Request.writes : Request → Bool
  | .read => false
  | .write _ => true
  | .maskedWrite _ _ => true

/-- Whether an entry is EXECUTING. -/
def EntryState.isExecuting : EntryState → Bool
  | .executing _ => true
  | _ => false

/-- Whether a WRITE or MASKED_WRITE entry for the host line is EXECUTING (R161, R164). -/
def hasExecutingWrite (s : State) (hostLine : Nat) : Bool :=
  s.channel.table.any fun e => e.hostLine == hostLine && e.request.writes && e.state.isExecuting

/-- The state of an entry that becomes READY: a MASKED_WRITE with every mask flag clear passes at once to COMPLETING with
OK (R41). -/
def readyState : Request → EntryState
  | .maskedWrite _ mask => if mask = 0 then .completing .ok none none else .ready
  | _ => .ready

/-- The oldest entry of a host line is re-examined: a WAITING one with no residual operation on its line passes to HELD
when the line is locked and becomes READY otherwise (R39). -/
def reexamine (hostLine : Nat) (s : State) : State :=
  match s.channel.table.find? (·.hostLine == hostLine) with
  | some e =>
    if e.state = .waiting ∧ hasResidual s hostLine = false then
      setEntryState e.tag (if isLocked s hostLine then .held else readyState e.request) s
    else s
  | none => s

/-- A completion goes out on the host channel (R34, R35, R44). -/
def emitCompletion (c : Completion) (s : State) : State :=
  { s with out := { s.out with completions := s.out.completions ++ [c] } }

/-- Host requests are served in READY, QUIESCING and QUIET (R35, R140). -/
def OpState.serving : OpState → Bool
  | .ready => true
  | .quiescing => true
  | .quiet => true
  | _ => false

end Sys2Proof.Machine
end

