-- ==== Sys2Proof/Machine/PatrolUnit.lean ====
section
/-! DEFINITION. Sys2Proof/Machine/PatrolUnit.lean: the Patrol Unit's cursor, sweeps, step endings, marks and withdrawals
(chapter 9), and the sweep-end trigger of the Notice Unit (R181). -/

namespace Sys2Proof.Machine

/-- The half-period: pace_period divided by 2, the remainder dropped (R179). -/
def halfPeriod (s : State) : Nat := s.settings.pacePeriod / 2

/-- The sweep-end trigger: an alert request when the pace counter is at or above the half-period and a notice waits;
the pace counter is set to 0 in either case (R181). -/
def sweepEndTrigger (s : State) : State :=
  let asked := if halfPeriod s ≤ s.notices.pace ∧ s.notices.queue ≠ [] then alertRequest s else s
  { asked with notices := { asked.notices with pace := 0 } }

/-- The parity at a sweep end, by the live mode before and after (R168). -/
def nextParity (before after : PatrolMode) (parity : Bool) : Bool :=
  match before, after with
  | .split, .split => !parity
  | _, _ => false

/-- The first cursor of a sweep: live start, plus the parity in SPLIT (R160). -/
def firstCursor (start : Nat) (mode : PatrolMode) (parity : Bool) : Nat :=
  match mode with
  | .linear => start
  | .split => start + (if parity then 1 else 0)

/-- The staged region and mode are adopted as live, the parity is set and the cursor takes its first value (steps 4 and 5
of R167, R168). -/
def adoptRegion (s : State) : State :=
  let parity := nextParity s.patrol.liveMode s.settings.patrolMode s.patrol.parity
  { s with
    patrol :=
      { s.patrol with
        liveStart := s.settings.patrolStart
        liveEnd := s.settings.patrolEnd
        liveMode := s.settings.patrolMode
        parity := parity
        cursor := firstCursor s.settings.patrolStart s.settings.patrolMode parity } }

/-- The end of a sweep, its five parts in order (R167). -/
def sweepEnd (s : State) : State :=
  let counted := { s with patrol := { s.patrol with sweep := s.patrol.sweep + 1 } }
  let told := raiseSweepDone counted.patrol.sweep counted.patrol.tallies counted
  let cleared := { told with patrol := { told.patrol with tallies := .zero } }
  adoptRegion (sweepEndTrigger cleared)

/-- The advance of the cursor, by 1 in LINEAR and by 2 in SPLIT; beyond live end it ends the sweep (R160, R166). -/
def advanceCursor (s : State) : State :=
  let cursor := s.patrol.cursor + (match s.patrol.liveMode with | .linear => 1 | .split => 2)
  let moved := { s with patrol := { s.patrol with cursor := cursor } }
  if s.patrol.liveEnd < cursor then sweepEnd moved else moved

/-- The end of the step in flight: its record is removed, and the cursor advances if its sweep is the current one
(R166). -/
def endStep (s : State) : State :=
  match s.patrol.step with
  | none => s
  | some st =>
    let removed := { s with patrol := { s.patrol with step := none } }
    if st.sweep = s.patrol.sweep then advanceCursor removed else removed

/-- patrol_skipped rises by 1 (R172). -/
def countSkipped (s : State) : State :=
  { s with counters := { s.counters with patrolSkipped := satInc s.counters.patrolSkipped } }

/-- The skipped tally rises by 1 (R167). -/
def tallySkipped (s : State) : State :=
  { s with
    patrol :=
      { s.patrol with tallies := { s.patrol.tallies with skipped := satInc s.patrol.tallies.skipped } } }

/-- The step in flight ends skipped or suppressed: patrol_skipped rises, the skipped tally rises if its sweep is the
current one, and the step ends (R161, R164, R166). -/
def skipStep (s : State) : State :=
  match s.patrol.step with
  | none => s
  | some st => endStep (if st.sweep = s.patrol.sweep then tallySkipped (countSkipped s) else countSkipped s)

/-- A patrol claim is withdrawn and the step ends skipped; the passed-over count returns to 0 (R63, R161, R164). -/
def withdrawPatrol (s : State) : State := skipStep { s with media := { s.media with passedOver := 0 } }

/-- Whether a patrol writeback of the host line is issued (R102, R165). -/
def writebackIssued (s : State) (hostLine : Nat) : Bool :=
  match s.patrol.step with
  | some { hostLine := h, state := .writingBack _ issued, .. } => issued && h == hostLine
  | _ => false

/-- The issue mark of the step in flight is set to SET (R162). -/
def setMark (s : State) : State :=
  { s with patrol := { s.patrol with step := s.patrol.step.map fun st => { st with mark := true } } }

/-- The mark of a step in READING or WRITING_BACK is set; a writeback claim that still waits is withdrawn and the
writeback suppressed (R162, R164). -/
def markStep (s : State) : State :=
  match s.patrol.step with
  | some { state := .reading, .. } => setMark s
  | some { state := .writingBack _ issued, .. } => if issued then setMark s else withdrawPatrol s
  | _ => s

/-- A WRITE or MASKED_WRITE entry of the host line passes to EXECUTING (R162, R164). -/
def patrolSeesWrite (hostLine : Nat) (s : State) : State :=
  match s.patrol.step with
  | some st => if st.hostLine = hostLine then markStep s else s
  | none => s

/-- A lock is taken on the host line: the read claim of a WAITING step is withdrawn and the step ends skipped (R161); a
step in READING or WRITING_BACK is marked (R162, R164). -/
def patrolSeesLock (hostLine : Nat) (s : State) : State :=
  match s.patrol.step with
  | some st => if st.hostLine = hostLine then (if st.state = .waiting then withdrawPatrol s else markStep s) else s
  | none => s

/-- The entry to QUIESCING: a writeback claim that waits is withdrawn and the writeback suppressed (R164, R170). -/
def patrolSeesQuiesce (s : State) : State :=
  match s.patrol.step with
  | some { state := .writingBack _ issued, .. } => if issued then s else withdrawPatrol s
  | _ => s

end Sys2Proof.Machine
end

