-- ==== Sys2Proof/Machine/HealthTracker.lean ====
section
/-! DEFINITION. Sys2Proof/Machine/HealthTracker.lean: the Suspect List: listing, eviction, overflow and removal (R76 to R80,
R84, R87). What each outcome does stands in Outcomes.lean, after the job requests it makes. -/

namespace Sys2Proof.Machine

/-- The order of the reasons (R78). -/
def reasonMax (a b : Reason) : Reason := if reasonCode a ≤ reasonCode b then b else a

/-- The suspect entry of a host line (R90). -/
def suspectOf (s : State) (hostLine : Nat) : Option Suspect := s.suspects.find? (·.hostLine == hostLine)

/-- Whether a host line is listed, with any reason (R90). -/
def isListed (s : State) (hostLine : Nat) : Bool := (suspectOf s hostLine).isSome

/-- A listing of a listed line: its hits rise by 1, saturating at 255, and its reason is raised (R78, R79). -/
def raiseSuspect (reason : Reason) (e : Suspect) : Suspect :=
  { e with hits := min 255 (e.hits + 1), reason := reasonMax e.reason reason }

/-- The entry that a first listing makes (R76). -/
def newSuspect (s : State) (hostLine : Nat) (reason : Reason) (o : Origin) : Suspect :=
  { hostLine := hostLine, reason := reason, hits := 1, sweep := s.patrol.sweep, origin := o }

/-- The entry of a host line is taken out of the Suspect List (R77, R87). -/
def removeSuspect (hostLine : Nat) (s : State) : State :=
  { s with suspects := s.suspects.filter fun e => e.hostLine != hostLine }

/-- A listing (R79), with the full-list rule: the oldest SOFT entry is evicted, or, where none stands, the line is not
listed and SUSPECT_OVERFLOW is raised (R80). -/
def listSuspect (hostLine : Nat) (reason : Reason) (o : Origin) (s : State) : State :=
  if isListed s hostLine then
    { s with suspects := s.suspects.map fun e => if e.hostLine = hostLine then raiseSuspect reason e else e }
  else if s.suspects.length < 64 then
    { s with suspects := s.suspects ++ [newSuspect s hostLine reason o] }
  else
    match s.suspects.find? (·.reason == .soft) with
    | some v =>
      let evicted := raiseSuspectEvicted v.hostLine (removeSuspect v.hostLine s)
      { evicted with suspects := evicted.suspects ++ [newSuspect s hostLine reason o] }
    | none =>
      let told := raiseSuspectOverflow hostLine s
      { told with counters := { told.counters with suspectOverflows := satInc told.counters.suspectOverflows } }

/-- A LOST listing from a LOST outcome: DATA_LOST with the source's origin first, then the listing (R80, R84). -/
def listDataLost (hostLine : Nat) (noticeOrigin listOrigin : Origin) (s : State) : State :=
  listSuspect hostLine .lost listOrigin (raiseDataLost hostLine noticeOrigin s)

/-- The reason of a listed line is raised to DEFERRED without a hit (answer REFUSED of R81). -/
def deferSuspect (hostLine : Nat) (s : State) : State :=
  { s with
    suspects :=
      s.suspects.map fun e => if e.hostLine = hostLine then { e with reason := reasonMax e.reason .deferred } else e }

end Sys2Proof.Machine
end

