-- ==== Sys2Proof/Machine/RetirementEngine.lean ====
section
/-! DEFINITION. Sys2Proof/Machine/RetirementEngine.lean: job requests, enqueue and adoption, locks taken and released, the
head job's examination, reservations, and the four endings (chapter 6, R12 to R15, R85, R86), with the drain check that a
job ending makes (R154). -/

namespace Sys2Proof.Machine

/-! ### Locks taken and released (R40, R95) -/

/-- The Channel Interface and the Patrol Unit act on a lock taken: the READY entry of the line passes to HELD (R40), and
the patrol step on the line is withdrawn or marked (R161, R162). -/
def lockTaken (hostLine : Nat) (s : State) : State :=
  patrolSeesLock hostLine
    { s with
      channel :=
        { s.channel with
          table :=
            s.channel.table.map fun e =>
              if e.hostLine = hostLine ∧ e.state = .ready then { e with state := .held } else e } }

/-- The Channel Interface acts on a lock released: the HELD entry of the line becomes READY (R40, R41). -/
def lockReleased (hostLine : Nat) (s : State) : State :=
  { s with
    channel :=
      { s.channel with
        table :=
          s.channel.table.map fun e =>
            if e.hostLine = hostLine ∧ e.state = .held then { e with state := readyState e.request } else e } }

/-! ### Requests for a job (6.2) -/

/-- The answers to a job request (R67, R81). -/
inductive Answer where
  | enqueued | adopted | alreadyQueued | refused
deriving DecidableEq, Repr

/-- The job record that an enqueue makes: the kind from the translation of the line, and the data when the request
brings it (R99). -/
def newJob (s : State) (hostLine : Nat) (o : Origin) (data : Option LineData) (tag : Option Tag) : Job :=
  { hostLine := hostLine
    kind := match mapEntry s hostLine with | some e => .reretire e.spare | none => .retire
    origin := o
    source := match data with | some _ => .buffer | none => .fetch
    buffer := data
    attempts := 0
    reserved := none
    originator := tag
    state := .queued }

/-- An enqueue: the job joins at the tail, which locks its line (R99). -/
def enqueue (hostLine : Nat) (o : Origin) (data : Option LineData) (tag : Option Tag) (s : State) : State :=
  lockTaken hostLine { s with queue := s.queue ++ [newJob s hostLine o data tag] }

/-- An adoption: the QUEUED FETCH job of the line takes the data, and for a write the originating request (R100). -/
def adopt (hostLine : Nat) (data : LineData) (tag : Option Tag) (s : State) : State :=
  { s with
    queue :=
      s.queue.map fun j =>
        if j.hostLine = hostLine then { j with source := .buffer, buffer := some data, originator := tag } else j }

/-- The job of a host line, if the queue holds one. -/
def jobOf (s : State) (hostLine : Nat) : Option Job := s.queue.find? (·.hostLine == hostLine)

/-- A BUFFER request, answered by the first row of R96 that applies. -/
def bufferRequest (hostLine : Nat) (o : Origin) (data : LineData) (tag : Option Tag) (s : State) : Answer × State :=
  if s.opState ≠ .ready then (.refused, s)
  else if s.journal.state = .failed then (.refused, s)
  else
    match jobOf s hostLine with
    | some j =>
      if j.source = .fetch ∧ j.state = .queued then (.adopted, adopt hostLine data tag s) else (.refused, s)
    | none =>
      if 8 ≤ s.queue.length then (.refused, s) else (.enqueued, enqueue hostLine o (some data) tag s)

/-- A FETCH request, answered by the first row of R97 that applies. -/
def fetchRequest (hostLine : Nat) (o : Origin) (s : State) : Answer × State :=
  if s.opState ≠ .ready then (.refused, s)
  else if s.journal.state = .failed then (.refused, s)
  else if isLocked s hostLine then (.alreadyQueued, s)
  else if 8 ≤ s.queue.length then (.refused, s)
  else (.enqueued, enqueue hostLine o none none s)

/-- Whether a job took the line: ENQUEUED, ADOPTED or ALREADY_QUEUED (R82). -/
def Answer.took : Answer → Bool
  | .refused => false
  | _ => true

/-! ### The head job -/

/-- The head job is changed; the others stay. -/
def updateHead (f : Job → Job) (s : State) : State :=
  match s.queue with
  | [] => s
  | j :: rest => { s with queue := f j :: rest }

/-- The wait of the head job before its first media operation (R102): an EXECUTING entry of its line other than its
originating request, a residual operation of its line, or an issued patrol writeback to it. -/
def headWaits (j : Job) (s : State) : Bool :=
  (s.channel.table.any fun e => e.hostLine == j.hostLine && e.state.isExecuting && some e.tag != j.originator)
    || hasResidual s j.hostLine || writebackIssued s j.hostLine

/-! ### Endings (6.5) -/

/-- The drain check (R154): in QUIESCING with the queue empty and the journal IDLE or FAILED, the state passes to QUIET
and QUIET_REACHED is raised. -/
def drainCheck (s : State) : State :=
  if s.opState = .quiescing ∧ s.queue = [] ∧ (s.journal.state = .idle ∨ s.journal.state = .failed) then
    raiseQuietReached { s with opState := .quiet }
  else s

/-- The oldest DEFERRED entry with an unlocked line (R86). -/
def promotable (s : State) : Option Suspect :=
  s.suspects.find? fun e => e.reason == .deferred && !isLocked s e.hostLine

/-- The promotion that a job ending considers (R86): in READY with the journal not FAILED and auto_retire on, a FETCH
request with origin PROMOTED for the oldest DEFERRED entry with an unlocked line. -/
def promote (s : State) : State :=
  if s.opState = .ready ∧ s.journal.state ≠ .failed ∧ s.settings.autoRetire = true then
    match promotable s with
    | some e => (fetchRequest e.hostLine .promoted s).2
    | none => s
  else s

/-- The head job leaves the queue and its line's lock is released (R93, R40). -/
def dequeue (s : State) : State :=
  match s.queue with
  | [] => s
  | j :: rest => lockReleased j.hostLine { s with queue := rest }

/-- retirements_failed rises by 1 (R118). -/
def countFailed (s : State) : State :=
  { s with counters := { s.counters with retirementsFailed := satInc s.counters.retirementsFailed } }

/-- spares_discarded rises by 1 (R13, R109). -/
def countDiscarded (s : State) : State :=
  { s with counters := { s.counters with sparesDiscarded := satInc s.counters.sparesDiscarded } }

/-- The state of an entry that takes its data back: RETIRING passes to EXECUTING for a write in place, returned set to yes,
with the data the job held as line data (R43, R72, R113). The phase is WRITE at once, where no rule names the phase between
the data's return and the write grant that sets it (DESIGN CHOICE: assumption 24). -/
def handedBack (data : Option LineData) (e : Entry) : Entry :=
  match e.state with
  | .retiring ctx =>
    { e with
      state := .executing { ctx with phase := .write, returned := true, lineData := data.or ctx.lineData } }
  | _ => e

/-- The data of a job that ends UNPLACED or FAILED goes back to its originating entry, whose passage to EXECUTING the
Patrol Unit sees (R113, R162); without one it is dropped. -/
def handBack (j : Job) (s : State) : State :=
  match j.originator with
  | some tag => patrolSeesWrite j.hostLine (updateEntry tag (handedBack j.buffer) s)
  | none => s

/-- An UNPLACED ending of the head job (R110), with the notice of its case. -/
def endUnplaced (notice : Nat → State → State) (s : State) : State :=
  match s.queue with
  | [] => s
  | j :: _ =>
    drainCheck (promote (dequeue (handBack j (countFailed
      (listSuspect j.hostLine .unplaced j.origin (notice j.hostLine s))))))

/-- A LOST ending of the head job (R111, R85). -/
def endLost (s : State) : State :=
  match s.queue with
  | [] => s
  | j :: _ => drainCheck (promote (dequeue (countFailed (listDataLost j.hostLine .fetch j.origin s))))

/-- The spare still RESERVED for the head job is released to FREE (R14). -/
def releaseSpare (j : Job) (s : State) : State :=
  match j.reserved with
  | some spare => setSpare spare .free s
  | none => s

/-- A FAILED ending of the head job (R112). No promotion is made: the journal is FAILED (R86). -/
def endFailed (s : State) : State :=
  match s.queue with
  | [] => s
  | j :: _ =>
    drainCheck (dequeue (handBack j (countFailed
      (listSuspect j.hostLine .deferred j.origin (raiseRetireFailedJournal j.hostLine (releaseSpare j s))))))

/-- The Line Map's part of a commit (R9): for RETIRE the entry of the line is added, for RERETIRE it is changed and the old
spare passes from IN_USE to DISCARDED and is counted; the reserved spare passes to IN_USE. -/
def commitMap (j : Job) (spare : Spare) (generation : BitVec 32) (s : State) : State :=
  let placed :=
    setSpare spare .inUse
      (putEntry { hostLine := j.hostLine, spare := spare, origin := j.origin, generation := generation } s)
  match j.kind with
  | .retire => placed
  | .reretire old => countDiscarded (setSpare old .discarded placed)

/-- The old spare that RETIRED carries (R118). -/
def JobKind.oldSpare : JobKind → Option Spare
  | .retire => none
  | .reretire old => some old

/-- The originating entry of a committed job passes from RETIRING to COMPLETING with OK (R43). -/
def completeOriginator (j : Job) (s : State) : State :=
  match j.originator with
  | some tag =>
    updateEntry tag
      (fun e => match e.state with | .retiring ctx => { e with state := .completing .ok none (some ctx) } | _ => e) s
  | none => s

/-- The commit of the head job, its parts in order (R109). -/
def commitHead (generation : BitVec 32) (s : State) : State :=
  match s.queue with
  | [] => s
  | j :: _ =>
    match j.reserved with
    | none => s
    | some spare =>
      let mapped := removeSuspect j.hostLine (commitMap j spare generation s)
      let counted :=
        { mapped with
          counters := { mapped.counters with retirementsCommitted := satInc mapped.counters.retirementsCommitted } }
      let told := raiseRetired j.hostLine spare j.kind.oldSpare j.origin counted
      drainCheck (promote (dequeue (completeOriginator j told)))

/-! ### Placing, and the examination of the head job -/

/-- PLACING: the head job claims a reservation (R12, R104). With a FREE spare it takes the one of lowest index, attempts
used rises by 1 and POOL_LOW is raised at the crossing of spare_low_mark (R15); with none the job ends UNPLACED with
POOL_EMPTY (R110). -/
def enterPlacing (s : State) : State :=
  match s.queue, lowestFree s with
  | [], _ => s
  | _ :: _, some spare =>
    let before := spareCount .free s
    let reserved :=
      updateHead (fun j => { j with state := .placing, reserved := some spare, attempts := j.attempts + 1 })
        (setSpare spare .reserved s)
    let after := spareCount .free reserved
    if s.settings.spareLowMark < before ∧ after ≤ s.settings.spareLowMark then raisePoolLow after reserved else reserved
  | _ :: _, none => endUnplaced raisePoolEmpty s

/-- The examination of the head job while it is QUEUED (R101), repeated for the next head when the job ends at once. The
first argument bounds the repetitions; each one ends a job that was in the queue. -/
def examineHead : Nat → State → State
  | 0, s => s
  | n + 1, s =>
    match s.queue with
    | [] => s
    | j :: _ =>
      if j.state ≠ .queued then s
      else if s.journal.state = .failed then examineHead n (endFailed s)
      else if headWaits j s then s
      else
        match j.source with
        | .fetch => updateHead (fun j => { j with state := .fetching }) s
        | .buffer => examineHead n (enterPlacing s)

/-- The job that has become head is examined, with as many repetitions as the queue can need (R101). -/
def runHead (s : State) : State := examineHead (s.queue.length + 1) s

/-- The head job is examined if it is the job of this host line: at its enqueue into an empty queue, and at each event of
R102 that can end its wait. -/
def examineLine (hostLine : Nat) (s : State) : State :=
  match s.queue with
  | j :: _ => if j.hostLine = hostLine then runHead s else s
  | [] => s

end Sys2Proof.Machine
end

