-- ==== Sys2Proof/Machine/JournalController.lean ====
section
/-! DEFINITION. Sys2Proof/Machine/JournalController.lean: the Map Journal: the single claim, appends, compaction and its
failure (chapter 7), the rebuild with header selection, bitmap and replay, the halts, and INITIALIZE_JOURNAL (chapter 8). -/

namespace Sys2Proof.Machine

/-! ### The media work of the journal -/

/-- A media operation that a claim asks for: the media line, and for a write the 64 data bytes (R61). -/
inductive MediaRequest where
  | read (line : Nat)
  | write (line : Nat) (data : LineData)
deriving DecidableEq, Repr

/-- What the owner of an operation is told: the decode of its read, or DONE, EXHAUSTED or TIMEOUT (R56 to R58). -/
inductive MediaResult where
  | read (outcome : DecodeOutcome) (data : LineData)
  | done
  | exhausted
  | timeout
deriving DecidableEq, Repr

/-- The free-slot count: 2045 less the tail slot (R125). -/
def freeSlots (s : State) : Nat := 2045 - s.journal.tail

/-- The half that is not active, the target of a compaction (R120). With no active half, half A (no write of the journal
is made then but INITIALIZE_JOURNAL's, which names its halves itself). -/
def targetHalf (s : State) : Half :=
  match s.journal.active with
  | some h => otherHalf h
  | none => .a

/-- The media line and the data of one write of a compaction (R132). -/
def compactionRequest (s : State) (c : Compaction) : CompactionWrite → MediaRequest
  | .blankHeader => .write (headerAddress (targetHalf s)) zeroLine
  | .snapshot k h spare => .write (slotAddress (targetHalf s) k) (recordLine c.generation (.retire h spare))
  | .carried k r => .write (slotAddress (targetHalf s) k) (recordLine c.generation r)
  | .bitmapLow => .write (bitmapAddress (targetHalf s) false) (bitmapLine (c.flags.extractLsb' 0 512))
  | .bitmapHigh => .write (bitmapAddress (targetHalf s) true) (bitmapLine (c.flags.extractLsb' 512 512))
  | .header => .write (headerAddress (targetHalf s)) (headerLine c.generation s.straps)

/-- The number of writes of INITIALIZE_JOURNAL (R151). -/
def initializeWrites : Nat := 4094

/-- Write `n` of INITIALIZE_JOURNAL, in the order of R151: half B's header blank, half B's slots blank, half A's slots
blank, half A's two bitmap lines clear, half A's header with generation 1. -/
def initializeRequest (s : State) (n : Nat) : MediaRequest :=
  if n = 0 then .write (headerAddress .b) zeroLine
  else if n ≤ 2045 then .write (slotAddress .b (n - 1)) zeroLine
  else if n ≤ 4090 then .write (slotAddress .a (n - 2046)) zeroLine
  else if n = 4091 then .write (bitmapAddress .a false) zeroLine
  else if n = 4092 then .write (bitmapAddress .a true) zeroLine
  else .write (headerAddress .a) (headerLine 1 s.straps)

/-- The next operation of the journal's own work (R128, R132, R144 to R147, R151). -/
def workRequest (s : State) : Option MediaRequest :=
  match s.journal.work with
  | .none => none
  | .rebuild .headerA => some (.read (headerAddress .a))
  | .rebuild (.headerB _) => some (.read (headerAddress .b))
  | .rebuild .bitmapLow => s.journal.active.map fun h => .read (bitmapAddress h false)
  | .rebuild (.bitmapHigh _) => s.journal.active.map fun h => .read (bitmapAddress h true)
  | .rebuild .record => s.journal.active.map fun h => .read (slotAddress h s.journal.tail)
  | .append =>
    match s.journal.active, s.journal.pending with
    | some h, some r => some (.write (slotAddress h s.journal.tail) (recordLine s.journal.generation r))
    | _, _ => none
  | .compact c =>
    match c.todo with
    | w :: _ => some (compactionRequest s c w)
    | [] => none
  | .formatting n => some (initializeRequest s n)

/-- The operation that the Journal Controller presents: its own work's, or the read of the slot that a service read names
(R137). -/
def journalRequest (s : State) : Option MediaRequest :=
  match s.journal.presented with
  | some .work => workRequest s
  | some .service => s.journal.service.map fun (h, k) => .read (slotAddress h k)
  | none => none

/-- The single claim is presented when none is: a held service read before the next operation of the journal's own work
(R137). -/
def presentNext (s : State) : State :=
  match s.journal.presented with
  | some _ => s
  | none =>
    if s.journal.service.isSome then { s with journal := { s.journal with presented := some .service } }
    else if (workRequest s).isSome then { s with journal := { s.journal with presented := some .work } }
    else s

/-! ### Ends of the rebuild and of INITIALIZE_JOURNAL (R149, R151, R152) -/

/-- The state samples PWARN on its way into service: deasserted, READY; asserted, QUIESCING, and the drain check at once
(R149, R151). -/
def enterService (s : State) : State :=
  if s.pins.pwarn then drainCheck { s with opState := .quiescing } else { s with opState := .ready }

/-- The rebuild ends with outcome READY: REBUILD_DONE, then READY or QUIESCING by PWARN (R149). -/
def finishRebuild (s : State) : State := enterService (raiseRebuildDone 1 s)

/-- The rebuild or the initialization ends in HALTED with a halt cause, and REBUILD_DONE has outcome HALTED; no further
operation of that work is issued (R144, R146, R148, R152). -/
def halt (cause : HaltCause) (s : State) : State :=
  raiseRebuildDone 3
    { s with opState := .halted, haltCause := cause, journal := { s.journal with work := .none } }

/-! ### Compaction (7.4) -/

/-- The answer FAILED to a pending append, carried or held: it is cleared and the head job ends FAILED (R112, R134). -/
def answerFailed (s : State) : State :=
  match s.journal.pending with
  | some _ => runHead (endFailed { s with journal := { s.journal with pending := none } })
  | none => s

/-- The failure of a compaction (R134): FAILED, JOURNAL_FAILED, the pending append answered FAILED; then, during REBUILD,
HALTED after a write TIMEOUT and the end of the rebuild otherwise (R148), and outside it the drain check (R154). The check
comes after the parts of R134, so QUIET_REACHED follows JOURNAL_FAILED, an order no rule gives (DESIGN CHOICE: assumption
25). -/
def failCompaction (cause : FailCause) (s : State) : State :=
  let failed := { s with journal := { s.journal with state := .failed, work := .none } }
  let told := answerFailed (raiseJournalFailed cause failed.journal.uncertain failed)
  if told.opState = .rebuild then (if cause = .timeout then halt .mediaTimeout told else finishRebuild told)
  else drainCheck told

/-- The record that a compaction carries: a RETIRE or RERETIRE whose append failed; a DISCARD is carried by the bitmap
(R129). -/
def carriedRecord (carries : Bool) (pending : Option AppendRecord) : Option AppendRecord :=
  match carries, pending with
  | true, some (.retire h n) => some (.retire h n)
  | true, some (.reretire h n o) => some (.reretire h n o)
  | _, _ => none

/-- The writes of a compaction, in the order of R132. -/
def compactionWrites (entries : List MapEntry) (carried : Option AppendRecord) : List CompactionWrite :=
  [.blankHeader]
    ++ (entries.zipIdx.map fun (e, k) => .snapshot k e.hostLine e.spare)
    ++ (match carried with | some r => [.carried entries.length r] | none => [])
    ++ [.bitmapLow, .bitmapHigh, .header]

/-- The compaction that starts now: the active generation plus 1, the map and flags presented at this event (R130, R131),
and the pending append when `carries` says its write has failed (R129). -/
def newCompaction (carries : Bool) (s : State) : Compaction :=
  let carried := carriedRecord carries s.journal.pending
  { generation := s.journal.generation + 1
    flags := discardFlags s
    records := (presentedEntries s).length + (match carried with | some _ => 1 | none => 0)
    carries := carries
    todo := compactionWrites (presentedEntries s) carried }

/-- A compaction starts (R130); from the last generation it fails at once with cause GENERATION_LIMIT. -/
def startCompaction (carries : Bool) (s : State) : State :=
  if s.journal.generation = BitVec.allOnes 32 then
    failCompaction .generationLimit { s with journal := { s.journal with state := .compacting } }
  else { s with journal := { s.journal with state := .compacting, work := .compact (newCompaction carries s) } }

/-! ### Appends (7.3) -/

/-- An append request (R127): written when IDLE, held while COMPACTING, answered FAILED at once when FAILED. The other two
states meet no request: one is pending at most, and in REPLAY the queue is empty (DEDUCED: assumption 16). -/
def requestAppend (r : AppendRecord) (s : State) : State :=
  match s.journal.state with
  | .idle =>
    presentNext { s with journal := { s.journal with state := .appending, pending := some r, work := .append } }
  | .compacting => { s with journal := { s.journal with pending := some r } }
  | .failed => runHead (endFailed s)
  | _ => s

/-- The head job at the DONE answer of its DISCARD append (R107). -/
def afterDiscard (s : State) : State :=
  match s.queue with
  | [] => s
  | j :: _ => if 4 ≤ j.attempts then endUnplaced raiseRetireFailedAttempts s else enterPlacing s

/-- The answer DONE to the pending append, with the generation under which its record was written: a RETIRE or RERETIRE
commits (R109), a DISCARD lets the job go on (R107). -/
def answerDone (r : AppendRecord) (generation : BitVec 32) (s : State) : State :=
  match r with
  | .retire _ _ => runHead (commitHead generation s)
  | .reretire _ _ _ => runHead (commitHead generation s)
  | .discard _ => runHead (afterDiscard s)

/-- The journal passes to IDLE, and the drain check is made (R126, R154). -/
def journalIdle (s : State) : State :=
  drainCheck { s with journal := { s.journal with state := .idle, work := .none } }

/-- The append write ends DONE, its effects in order (R128). -/
def appendDone (s : State) : State :=
  match s.journal.pending with
  | none => s
  | some r =>
    let advanced :=
      { s with journal := { s.journal with tail := s.journal.tail + 1, pending := none, work := .none } }
    let answered := answerDone r s.journal.generation advanced
    if freeSlots answered < 64 then startCompaction false answered else journalIdle answered

/-- The append write ends EXHAUSTED or TIMEOUT: the record stays pending, the slot is uncertain, and a compaction that
carries the record starts (R129). -/
def appendFailed (s : State) : State :=
  startCompaction true { s with journal := { s.journal with uncertain := some s.journal.tail } }

/-- The state of the journal after the first step of a compaction's completion (step 1 of R133). -/
def completedJournal (s : State) (c : Compaction) : Journal :=
  { s.journal with
    active := some (targetHalf s)
    generation := c.generation
    tail := c.records
    bitmap := c.flags
    uncertain := none
    work := .none }

/-- The answer to a carried append at the completion of its compaction (step 4 of R133). -/
def answerCarried (c : Compaction) (s : State) : State :=
  match c.carries, s.journal.pending with
  | true, some r => answerDone r c.generation { s with journal := { s.journal with pending := none } }
  | _, _ => s

/-- The last step of a compaction's completion (step 5 of R133): a held append is written at once, and otherwise the
journal passes to IDLE, which during REBUILD ends the rebuild (R148). -/
def afterCompaction (s : State) : State :=
  match s.journal.pending with
  | some _ => { s with journal := { s.journal with state := .appending, work := .append } }
  | none =>
    if s.opState = .rebuild then
      finishRebuild { s with journal := { s.journal with state := .idle, work := .none } }
    else journalIdle s

/-- The completion of a compaction at the DONE of its header write, its steps in order (R133). -/
def compactionDone (c : Compaction) (s : State) : State :=
  let switched := { s with journal := completedJournal s c }
  let counted :=
    { switched with
      counters := { switched.counters with journalCompactions := satInc switched.counters.journalCompactions } }
  afterCompaction (answerCarried c (raiseJournalCompacted c.generation c.records counted))

/-- A write of a compaction ends DONE: the next one is due, and the last one completes the compaction (R132, R133). -/
def compactionAdvance (c : Compaction) (s : State) : State :=
  match c.todo with
  | _ :: w :: rest => { s with journal := { s.journal with work := .compact { c with todo := w :: rest } } }
  | _ => compactionDone c s

/-! ### Rebuild (8.3) -/

/-- Power-up reset and RESTART begin the rebuild with the read of half A's header (R144). -/
def beginRebuild (s : State) : State :=
  presentNext { s with journal := { s.journal with work := .rebuild .headerA } }

/-- The half that header selection chooses, with its generation (R145). -/
def chooseHalf (a b : Option (BitVec 32)) : Option (Half × BitVec 32) :=
  match a, b with
  | none, none => none
  | some ga, none => some (.a, ga)
  | none, some gb => some (.b, gb)
  | some ga, some gb => if ga.toNat < gb.toNat then some (.b, gb) else some (.a, ga)

/-- Header selection at the decode of half B's header: the chosen half becomes active with the tail slot 0, or the state
passes to UNFORMATTED with REBUILD_DONE (R145). -/
def selectHeader (a b : Option (BitVec 32)) (s : State) : State :=
  match chooseHalf a b with
  | some (h, g) =>
    { s with
      journal := { s.journal with active := some h, generation := g, tail := 0, work := .rebuild .bitmapLow } }
  | none =>
    raiseRebuildDone 2 { s with opState := .unformatted, journal := { s.journal with work := .none } }

/-- Both bitmap lines are applied: each set flag takes its spare from FREE to DISCARDED, and the bitmap copy takes the
flags (R17, R146). -/
def applyBitmap (flags : BitVec 1024) (s : State) : State :=
  { s with
    lineMap :=
      { s.lineMap with
        spares :=
          ⟨⟨(List.finRange 1024).map fun i => if flags.getLsbD i.val then .discarded else spareState s i⟩, by simp⟩ }
    journal := { s.journal with bitmap := flags, work := .rebuild .record } }

/-- The condition of R124 for a record's kind against the map and pool as they stand. -/
def recordFits (s : State) : AppendRecord → Bool
  | .retire h n => (mapEntry s h).isNone && spareState s n == .free
  | .reretire h n o => (mapEntry s h).map MapEntry.spare == some o && spareState s n == .free
  | .discard n => spareState s n == .free

/-- A replayed record is applied to the map and the pool (R17). -/
def applyRecord (generation : BitVec 32) (r : AppendRecord) (s : State) : State :=
  match r with
  | .retire h n =>
    setSpare n .inUse (putEntry { hostLine := h, spare := n, origin := .replay, generation := generation } s)
  | .reretire h n o =>
    setSpare o .discarded
      (setSpare n .inUse (putEntry { hostLine := h, spare := n, origin := .replay, generation := generation } s))
  | .discard n => setSpare n .discarded s

/-- How a record ends or continues replay. -/
inductive Verdict where
  | torn | clean | apply (r : AppendRecord)
deriving DecidableEq, Repr

/-- The judgement of a replayed record, the first row of R147 that applies. -/
def judgeRecord (s : State) (o : DecodeOutcome) (r : RawRecord) : Verdict :=
  if o.cls = .lost then .torn
  else if r.kind = 0 then .clean
  else if 3 < r.kind.toNat then .torn
  else if r.checkMatches = false then .torn
  else if r.generation ≠ s.journal.generation then .clean
  else
    match consistentRecord (hostLines s) r with
    | some a => if recordFits s a then .apply a else .torn
    | none => .torn

/-- The end of replay (R148): JOURNAL_REPAIRED and a repair compaction after a torn end; after a clean one, a compaction
when fewer than 64 slots are free, and otherwise IDLE and the end of the rebuild. -/
def endReplay (torn : Bool) (s : State) : State :=
  if torn then startCompaction false (raiseJournalRepaired s.journal.tail s)
  else if freeSlots s < 64 then startCompaction false s
  else finishRebuild { s with journal := { s.journal with state := .idle, work := .none } }

/-- A record slot has been read (R147). -/
def replayRecord (o : DecodeOutcome) (d : LineData) (s : State) : State :=
  let raw := recordOf d
  match judgeRecord s o raw with
  | .torn => endReplay true s
  | .clean => endReplay false s
  | .apply a =>
    let applied := applyRecord raw.generation a s
    let advanced := { applied with journal := { applied.journal with tail := applied.journal.tail + 1 } }
    if advanced.journal.tail < 2045 then advanced else endReplay false advanced

/-- A read of the rebuild has been decoded (R144 to R147). -/
def rebuildRead (step : RebuildStep) (o : DecodeOutcome) (d : LineData) (s : State) : State :=
  match step with
  | .headerA => { s with journal := { s.journal with work := .rebuild (.headerB (headerOf s.straps o d)) } }
  | .headerB a => selectHeader a (headerOf s.straps o d) s
  | .bitmapLow =>
    if o.cls = .lost then halt .bitmapLost s
    else { s with journal := { s.journal with work := .rebuild (.bitmapHigh (bitmapFlags d)) } }
  | .bitmapHigh low => if o.cls = .lost then halt .bitmapLost s else applyBitmap (bitmapFlags d ++ low) s
  | .record => replayRecord o d s

/-! ### INITIALIZE_JOURNAL and service reads: the end of a pending command (R151, R152, R196) -/

/-- A pending command ends: its response is held and the command state becomes ANSWERED (R189, R196). -/
def endPending (results : List Byte) (s : State) : State :=
  match s.port.command with
  | .pending code =>
    { s with port := { s.port with command := .answered { status := .done, code := code, results := results } } }
  | _ => s

/-- The last write of INITIALIZE_JOURNAL ends DONE (R151). The outcome in the response is one byte with the code 1 that 12.1
gives the outcome READY in REBUILD_DONE, as 12.4 lays out no results for the command (DESIGN CHOICE: assumption 26). -/
def initializeDone (s : State) : State :=
  let ready :=
    { s with
      journal :=
        { s.journal with
          state := .idle, active := some .a, generation := 1, tail := 0, bitmap := 0, uncertain := none, work := .none } }
  finishRebuild (endPending (n8 1) ready)

/-- A write of INITIALIZE_JOURNAL ends DONE: the next one is due, and the last one completes it (R151). -/
def initializeAdvance (n : Nat) (s : State) : State :=
  if n + 1 < initializeWrites then { s with journal := { s.journal with work := .formatting (n + 1) } }
  else initializeDone s

/-- A write of INITIALIZE_JOURNAL ends EXHAUSTED or TIMEOUT (R152). The outcome in the response is one byte with the code 3
that 12.1 gives the outcome HALTED in REBUILD_DONE (DESIGN CHOICE: assumption 26). -/
def initializeFailed (s : State) : State := halt .initializeFailed (endPending (n8 3) s)

/-- The results of READ_JOURNAL_SLOT: the record's fields as decoded, whether the check matches, the class and the four
counts (R137); after a TIMEOUT the class code 4 and every other field absent (12.1, DESIGN CHOICE: assumption 8). -/
def slotResults : MediaResult → List Byte
  | .read o d =>
    let r := recordOf d
    [r.kind] ++ be32 r.generation ++ be32 r.hostLine ++ be16 r.newSpare ++ be16 r.oldSpare ++ be16 r.check
      ++ n8 (flagCode r.checkMatches) ++ n8 (classCode o.cls) ++ o.counts.toList.flatMap fun c => n8 (countCode c)
  | _ => absent 1 ++ absent 4 ++ absent 4 ++ absent 2 ++ absent 2 ++ absent 2 ++ absent 1 ++ n8 4 ++ absent 4

/-- The service read ends: the pending READ_JOURNAL_SLOT is answered (R137, R196). -/
def serviceEnd (r : MediaResult) (s : State) : State :=
  endPending (slotResults r) { s with journal := { s.journal with service := none } }

/-! ### The result of a journal operation -/

/-- The journal's own work at the result of its operation. -/
def workResult (r : MediaResult) (s : State) : State :=
  match s.journal.work, r with
  | .none, _ => s
  | .rebuild step, .read o d => rebuildRead step o d s
  | .rebuild _, .timeout => halt .mediaTimeout s
  | .rebuild _, _ => s
  | .append, .done => appendDone s
  | .append, .exhausted => appendFailed s
  | .append, .timeout => appendFailed s
  | .append, .read _ _ => s
  | .compact c, .done => compactionAdvance c s
  | .compact _, .exhausted => failCompaction .programFail s
  | .compact _, .timeout => failCompaction .timeout s
  | .compact _, .read _ _ => s
  | .formatting n, .done => initializeAdvance n s
  | .formatting _, .exhausted => initializeFailed s
  | .formatting _, .timeout => initializeFailed s
  | .formatting _, .read _ _ => s

/-- The Journal Controller is told the result of the operation it presented; it then presents its next claim (R137). -/
def journalResult (r : MediaResult) (s : State) : State :=
  let ended := { s with journal := { s.journal with presented := none } }
  match s.journal.presented with
  | some .work => presentNext (workResult r ended)
  | some .service => presentNext (serviceEnd r ended)
  | none => s

end Sys2Proof.Machine
end

