-- ==== Sys2Proof/Machine/Outcomes.lean ====
section
/-! DEFINITION. Sys2Proof/Machine/Outcomes.lean: what each owner of a media operation does with its result: host execution
(4.4 to 4.6), residual operations (R50), the Patrol Unit (R163 to R165) and the Retirement Engine (R103 to R108), with the
Health Tracker's actions for each class (R81 to R83). -/

namespace Sys2Proof.Machine

/-! ### The Health Tracker's actions (5.3) -/

/-- Step 4 of R81: at or above soft_limit with auto_retire on, a FETCH request; REFUSED, the reason is raised to DEFERRED.
A job enqueued into an empty queue is examined at once (R101). The request is made for a locked line too, as R81 checks every
SOFT outcome, where R92 says of a patrol read that outlives the lock that its SOFT outcome counts a hit with no further request:
the two differ outside READY and with the journal FAILED, where the answer REFUSED raises the reason to DEFERRED (DESIGN CHOICE:
assumption 30). -/
def softLimitRequest (hostLine : Nat) (o : Origin) (s : State) : State :=
  match suspectOf s hostLine with
  | some e =>
    if s.settings.softLimit ≤ e.hits ∧ s.settings.autoRetire = true then
      match fetchRequest hostLine o s with
      | (.enqueued, t) => examineLine hostLine t
      | (.refused, t) => deferSuspect hostLine t
      | (_, t) => t
    else s
  | none => s

/-- The SOFT action (R81). -/
def softAction (hostLine : Nat) (o : Origin) (s : State) : State :=
  if isListed s hostLine || s.settings.trackSoft then softLimitRequest hostLine o (listSuspect hostLine .soft o s) else s

/-- The listing of a HEAVY or LOST outcome that a job took: a listed line is listed HEAVY, and no entry is made for one that
is not (R82). -/
def listTaken (hostLine : Nat) (o : Origin) (s : State) : State :=
  if isListed s hostLine then listSuspect hostLine .heavy o s else s

/-- A HEAVY outcome whose source has data to give (R82): with auto_retire on a BUFFER request, with the listing its answer
calls for; off, a HEAVY listing. The Boolean says whether a job took the line. -/
def heavyWithData (hostLine : Nat) (o : Origin) (data : LineData) (tag : Option Tag) (s : State) : Bool × State :=
  if s.settings.autoRetire then
    match bufferRequest hostLine o data tag s with
    | (.refused, t) => (false, listSuspect hostLine .deferred o t)
    | (_, t) => (true, listTaken hostLine o t)
  else (false, listSuspect hostLine .heavy o s)

/-- A HEAVY outcome of the patrol (R83): with auto_retire on a FETCH request, with the listing its answer calls for; off, a
HEAVY listing. -/
def heavyPatrol (hostLine : Nat) (s : State) : State :=
  if s.settings.autoRetire then
    match fetchRequest hostLine .patrol s with
    | (.refused, t) => listSuspect hostLine .deferred .patrol t
    | (.enqueued, t) => examineLine hostLine (listTaken hostLine .patrol t)
    | (_, t) => listTaken hostLine .patrol t
  else listSuspect hostLine .heavy .patrol s

/-! ### Host execution -/

/-- An EXECUTING entry passes to COMPLETING with its status and data and keeps its context (R64), and the head job that waited
for it is re-examined (R42, R102). -/
def complete (e : Entry) (ctx : Context) (status : Status) (data : Option LineData) (s : State) : State :=
  examineLine e.hostLine (setEntryState e.tag (.completing status data (some ctx)) s)

/-- A write entry whose data a job took passes to RETIRING, its context kept with returned set to no; the job is examined if
it is the head (R42, R64, R99). -/
def passToRetiring (e : Entry) (ctx : Context) (s : State) : State :=
  examineLine e.hostLine (setEntryState e.tag (.retiring { ctx with returned := false }) s)

/-- The outcome of a READ (R66). -/
def readOutcome (e : Entry) (ctx : Context) (o : DecodeOutcome) (d : LineData) (s : State) : State :=
  match o.cls with
  | .clean => complete e ctx .ok (some d) s
  | .soft => complete e ctx .ok (some d) (softAction e.hostLine .hostRead s)
  | .heavy => complete e ctx .ok (some d) (heavyWithData e.hostLine .hostRead d none s).2
  | .lost => complete e ctx .poisoned (some d) (listDataLost e.hostLine .hostRead .hostRead s)

/-- The merged line: the request's byte where the mask flag is set, the byte read where it is clear (R74). -/
def mergeLine (data : LineData) (mask : BitVec 64) (read : LineData) : LineData :=
  tabulate 64 fun i => if mask.getLsbD i then byteAt data i else byteAt read i

/-- The line data of an entry after its merge read (R74). -/
def mergedData (e : Entry) (read : LineData) : LineData :=
  match e.request with
  | .maskedWrite data mask => mergeLine data mask read
  | .write data => data
  | .read => read

/-- The outcome of a merge read (R73). With the class CLEAN, SOFT or HEAVY the merged line becomes the line data; unless a
job takes it, the entry stays EXECUTING and its claim for the merge write joins the set. -/
def mergeOutcome (e : Entry) (ctx : Context) (o : DecodeOutcome) (d : LineData) (s : State) : State :=
  let merged := mergedData e d
  let ctx' := { ctx with lineData := some merged }
  match o.cls with
  | .clean => setEntryState e.tag (.executing ctx') s
  | .soft => softAction e.hostLine .hostWrite (setEntryState e.tag (.executing ctx') s)
  | .heavy =>
    match heavyWithData e.hostLine .hostWrite merged (some e.tag) (setEntryState e.tag (.executing ctx') s) with
    | (true, t) => passToRetiring e ctx' t
    | (false, t) => t
  | .lost => complete e ctx .poisoned none (listDataLost e.hostLine .maskedWrite .hostWrite s)

/-- The line data that an entry writes (R64). -/
def writtenData (ctx : Context) : LineData := ctx.lineData.getD zeroLine

/-- A LOST verify, or an EXHAUSTED write handled as one (R70, R72): an entry not returned asks for a job when auto_retire is
on; with no job the line is listed LOST, DATA_LOST has origin VERIFY, and the entry completes MEDIA_FAULT. -/
def verifyLost (e : Entry) (ctx : Context) (s : State) : State :=
  let fault (t : State) : State := complete e ctx .mediaFault none (listDataLost e.hostLine .verify .hostWrite t)
  if s.settings.autoRetire = true ∧ ctx.returned = false then
    match bufferRequest e.hostLine .hostWrite (writtenData ctx) (some e.tag) s with
    | (.refused, t) => fault t
    | (_, t) => passToRetiring e ctx (listTaken e.hostLine .hostWrite t)
  else fault s

/-- A HEAVY verify: of a returned write, a DEFERRED listing and no job request (R72); of any other, a BUFFER request with the
line data the entry wrote (R70). -/
def verifyHeavy (e : Entry) (ctx : Context) (s : State) : State :=
  if ctx.returned then complete e ctx .ok none (listSuspect e.hostLine .deferred .hostWrite s)
  else
    match heavyWithData e.hostLine .hostWrite (writtenData ctx) (some e.tag) s with
    | (true, t) => passToRetiring e ctx t
    | (false, t) => complete e ctx .ok none t

/-- The outcome of a verify read (R70, R72). -/
def verifyOutcome (e : Entry) (ctx : Context) (o : DecodeOutcome) (s : State) : State :=
  match o.cls with
  | .clean => complete e ctx .ok none (removeSuspect e.hostLine s)
  | .soft => complete e ctx .ok none (softAction e.hostLine .hostWrite s)
  | .heavy => verifyHeavy e ctx s
  | .lost => verifyLost e ctx s

/-- The MEDIA_WRITE of an entry ends DONE: the claim for the verify read joins the set when one is owed, and otherwise the
entry completes OK (R69). -/
def writeDone (e : Entry) (ctx : Context) (s : State) : State :=
  if ctx.verifyOwed then setEntryState e.tag (.executing { ctx with phase := .verify }) s else complete e ctx .ok none s

/-- Host execution at the result of an operation of an EXECUTING entry (R66, R69 to R73). -/
def executingResult (e : Entry) (ctx : Context) (r : MediaResult) (s : State) : State :=
  match r with
  | .timeout => complete e ctx .mediaFault none s
  | .read o d =>
    match ctx.phase with
    | .read => readOutcome e ctx o d s
    | .mergeRead => mergeOutcome e ctx o d s
    | .verify => verifyOutcome e ctx o s
    | .write => s
  | .done => writeDone e ctx s
  | .exhausted => verifyLost e ctx s

/-- Host execution is told the result of the operation of a tag's entry (R56, R57, R58). -/
def hostResult (tag : Tag) (r : MediaResult) (s : State) : State :=
  match entryOf s tag with
  | some e =>
    match e.state with
    | .executing ctx => executingResult e ctx r s
    | _ => s
  | none => s

/-! ### Residual operations (R50, R51) -/

/-- The origin of the listings of a residual operation, by the row of its kind (R83; DEDUCED: assumption 14). -/
def residualOrigin : ResidualOp → Origin
  | .read => .hostRead
  | .mergeRead => .hostWrite
  | .write => .hostWrite
  | .verify => .hostWrite

/-- The origin of the DATA_LOST of a residual operation (R50, R84). -/
def residualLostOrigin : ResidualOp → Origin
  | .read => .hostRead
  | .mergeRead => .maskedWrite
  | .write => .verify
  | .verify => .verify

/-- A residual read, merge read or verify read has been decoded (R50, R83). -/
def residualRead (x : Residual) (o : DecodeOutcome) (d : LineData) (s : State) : State :=
  let origin := residualOrigin x.op
  match o.cls with
  | .clean => if x.op = .verify then removeSuspect x.hostLine s else s
  | .soft => softAction x.hostLine origin s
  | .heavy =>
    if x.op = .verify ∧ x.returned = true then listSuspect x.hostLine .deferred origin s
    else (heavyWithData x.hostLine origin d none s).2
  | .lost => listDataLost x.hostLine (residualLostOrigin x.op) origin s

/-- The outcome of a residual operation at the Health Tracker (R50). -/
def residualOutcome (x : Residual) (r : MediaResult) (s : State) : State :=
  match r with
  | .read o d => residualRead x o d s
  | .exhausted => listSuspect x.hostLine .lost .hostWrite s
  | .done => s
  | .timeout => s

/-- A residual operation ends: its outcome, the removal of its record, and the re-examination of the line's entries and of
the head job that waited for it, in this order (R51, R102). -/
def residualResult (id : SlotId) (r : MediaResult) (s : State) : State :=
  match s.channel.residuals.find? (·.slot == id) with
  | some x =>
    let told := residualOutcome x r s
    let removed :=
      { told with channel := { told.channel with residuals := told.channel.residuals.filter fun y => y.slot != id } }
    examineLine x.hostLine (reexamine x.hostLine removed)
  | none => s

/-! ### The Patrol Unit (9.4) -/

/-- A tally of the current sweep is raised for a decoded class (R163). -/
def tallyClass (c : DecodeClass) (t : Tallies) : Tallies :=
  let read := { t with lines := satInc t.lines }
  match c with
  | .clean => read
  | .soft => { read with soft := satInc t.soft }
  | .heavy => { read with heavy := satInc t.heavy }
  | .lost => { read with lost := satInc t.lost }

/-- Step 1 of R163: the tallies, when the step's sweep is the current one. -/
def tallyOutcome (st : PatrolStep) (c : DecodeClass) (s : State) : State :=
  if st.sweep = s.patrol.sweep then
    { s with patrol := { s.patrol with tallies := tallyClass c s.patrol.tallies } }
  else s

/-- Step 2 of R163: the Health Tracker's action for the patrol-read row of R83. -/
def patrolTracked (hostLine : Nat) (c : DecodeClass) (s : State) : State :=
  match c with
  | .clean => s
  | .soft => softAction hostLine .patrol s
  | .heavy => heavyPatrol hostLine s
  | .lost => listDataLost hostLine .patrol .patrol s

/-- Whether the writeback of the step in flight is suppressed (R164). -/
def writebackSuppressed (st : PatrolStep) (s : State) : Bool :=
  st.mark || hasExecutingWrite s st.hostLine || hasResidualWrite s st.hostLine || isLocked s st.hostLine
    || s.opState != .ready

/-- The writeback decision at a SOFT outcome (R164): suppressed, the step ends skipped; otherwise it passes to WRITING_BACK
with the corrected data, and its claim joins the set. -/
def decideWriteback (d : LineData) (s : State) : State :=
  match s.patrol.step with
  | some st =>
    if writebackSuppressed st s then skipStep s
    else { s with patrol := { s.patrol with step := some { st with state := .writingBack d false } } }
  | none => s

/-- The patrol's read of a step has been decoded (R163): tallies, Health Tracker, patrol action. -/
def patrolRead (st : PatrolStep) (o : DecodeOutcome) (d : LineData) (s : State) : State :=
  let tracked := patrolTracked st.hostLine o.cls (tallyOutcome st o.cls s)
  match o.cls with
  | .soft => decideWriteback d tracked
  | _ => endStep tracked

/-- The writeback of a step ends (R165); EXHAUSTED is a HEAVY outcome of the line. The step ends, with SWEEP_DONE where the
sweep ends with it, before the head job that waited for the writeback is re-examined (R102), an order no rule gives (DESIGN
CHOICE: assumption 27). -/
def writebackResult (st : PatrolStep) (r : MediaResult) (s : State) : State :=
  match r with
  | .exhausted => examineLine st.hostLine (endStep (heavyPatrol st.hostLine s))
  | _ => examineLine st.hostLine (endStep s)

/-- The Patrol Unit is told the result of its step's operation (R163, R165). -/
def patrolResult (r : MediaResult) (s : State) : State :=
  match s.patrol.step with
  | some st =>
    match st.state, r with
    | .reading, .read o d => patrolRead st o d s
    | .reading, _ => endStep s
    | .writingBack _ _, _ => writebackResult st r s
    | .waiting, _ => s
  | none => s

/-! ### The Retirement Engine (6.4) -/

/-- A discard of the head job's spare (R107, R13): DISCARDED at once, the reserved spare emptied, spares_discarded raised, the
job in PLACING, and the DISCARD append asked for. -/
def discardSpare (s : State) : State :=
  match s.queue with
  | { reserved := some spare, .. } :: _ =>
    requestAppend (.discard spare)
      (updateHead (fun j => { j with state := .placing, reserved := none })
        (countDiscarded (setSpare spare .discarded s)))
  | _ => s

/-- The record that a CLEAN check read asks the Journal Controller to append (R108). -/
def retirementRecord (j : Job) (spare : Spare) : AppendRecord :=
  match j.kind with
  | .retire => .retire j.hostLine spare
  | .reretire old => .reretire j.hostLine spare old

/-- RECORDING: the head job asks for the append of its record (R108). -/
def enterRecording (s : State) : State :=
  match s.queue with
  | j :: _ =>
    match j.reserved with
    | some spare => requestAppend (retirementRecord j spare) (updateHead (fun j => { j with state := .recording }) s)
    | none => s
  | [] => s

/-- The result of the FETCH read (R103). -/
def fetchResult (r : MediaResult) (s : State) : State :=
  match r with
  | .read o d =>
    if o.cls = .lost then runHead (endLost s)
    else runHead (enterPlacing (updateHead (fun j => { j with buffer := some d }) s))
  | .timeout => runHead (endUnplaced (fun _ t => t) s)
  | _ => s

/-- The result of the placement write (R105). -/
def placementResult (r : MediaResult) (s : State) : State :=
  match r with
  | .done => updateHead (fun j => { j with state := .checking }) s
  | .exhausted => discardSpare s
  | .timeout => discardSpare s
  | .read _ _ => s

/-- The outcome of the check read (R106). -/
def checkResult (r : MediaResult) (s : State) : State :=
  match r with
  | .read o _ => if o.cls = .clean then enterRecording s else discardSpare s
  | .timeout => discardSpare s
  | _ => s

/-- The Retirement Engine is told the result of the head job's operation (R103, R105, R106). -/
def retirementResult (r : MediaResult) (s : State) : State :=
  match s.queue with
  | [] => s
  | j :: _ =>
    match j.state with
    | .fetching => fetchResult r s
    | .placing => placementResult r s
    | .checking => checkResult r s
    | _ => s

/-! ### Delivery -/

/-- The owner of an operation is told its result (R56 to R58). -/
def deliver (owner : Owner) (id : SlotId) (r : MediaResult) (s : State) : State :=
  match owner with
  | .journal => journalResult r s
  | .retirement => retirementResult r s
  | .patrol => patrolResult r s
  | .host tag => hostResult tag r s
  | .residual => residualResult id r s

end Sys2Proof.Machine
end

