-- ==== Sys2Proof/Machine/Arbiter.lean ====
section
/-! DEFINITION. Sys2Proof/Machine/Arbiter.lean: the Media Arbiter (4.2): the claims as their claimants hold them, the order of
grants, what each claimant does at its grant (R41, R55, R65 to R69, R73, R103, R161), and the grants at the end of an event. -/

namespace Sys2Proof.Machine

/-! ### The waiting claims (R61) -/

/-- The claim of the Journal Controller waits: an operation is presented and none is in flight. -/
def journalClaim (s : State) : Option MediaRequest := if inFlight s .journal then none else journalRequest s

/-- The claim of the head job waits: FETCH read, placement write or check read (R103 to R105). A job in PLACING without a
reserved spare waits for its DISCARD append and presents none (R107). -/
def retirementClaim (s : State) : Option MediaRequest :=
  match s.queue with
  | [] => none
  | j :: _ =>
    if inFlight s .retirement then none
    else
      match j.state, j.reserved with
      | .fetching, _ => some (.read (translate s j.hostLine))
      | .placing, some spare => some (.write (spareAddress spare) (j.buffer.getD zeroLine))
      | .checking, some spare => some (.read (spareAddress spare))
      | _, _ => none

/-- A patrol claim waits: the read of a WAITING step, or the writeback of a step whose writeback is not issued (R61). -/
def patrolClaims (s : State) : Bool :=
  match s.patrol.step with
  | some { state := .waiting, .. } => true
  | some { state := .writingBack _ false, .. } => true
  | _ => false

/-- An entry's claim waits: a READY entry's first operation, or the next operation of an EXECUTING entry with none in
flight (R41, R64). -/
def entryClaims (s : State) (e : Entry) : Bool :=
  match e.state with
  | .ready => true
  | .executing _ => !inFlight s (.host e.tag)
  | _ => false

/-- A host claim is passed over while a patrol writeback of its host line is issued and its entry writes (R165). -/
def passedOverBy165 (s : State) (e : Entry) : Bool := e.request.writes && writebackIssued s e.hostLine

/-- The host claim of the entry with the oldest arrival, the claims that R165 passes over being absent (R62). -/
def hostClaim (s : State) : Option Entry := s.channel.table.find? fun e => entryClaims s e && !passedOverBy165 s e

/-- The claim that a grant goes to. -/
inductive Winner where
  | journal (r : MediaRequest)
  | retirement (r : MediaRequest)
  | patrol
  | host (e : Entry)
deriving DecidableEq, Repr

/-- The order of grants (R62). -/
def winner (s : State) : Option Winner :=
  match journalClaim s with
  | some r => some (.journal r)
  | none =>
    match retirementClaim s with
    | some r => some (.retirement r)
    | none =>
      if patrolClaims s ∧ 16 ≤ s.media.passedOver then some .patrol
      else
        match hostClaim s with
        | some e => some (.host e)
        | none => if patrolClaims s then some .patrol else none

/-! ### The issue of an operation (R55) -/

/-- A MEDIA_READ is issued in a slot. -/
def issueRead (id : SlotId) (line : Nat) (owner : Owner) (s : State) : State :=
  emitMedia (.read id line) (setSlot id (.issued { op := .read, line := line, owner := owner, timer := 0 }) s)

/-- A MEDIA_WRITE is issued in a slot: the data is encoded, and the record keeps the codeword with try 1 (R20, R55). -/
def issueWrite (id : SlotId) (line : Nat) (data : LineData) (owner : Owner) (s : State) : State :=
  emitMedia (.write id line (encode data))
    (setSlot id (.issued { op := .write (encode data) 1, line := line, owner := owner, timer := 0 }) s)

/-- An operation is issued as its claim asks. -/
def issue (id : SlotId) (r : MediaRequest) (owner : Owner) (s : State) : State :=
  match r with
  | .read line => issueRead id line owner s
  | .write line data => issueWrite id line data owner s

/-! ### Host grants -/

/-- The passed-over count after a host grant: raised by 1 while a patrol claim waits (R63). -/
def countPassedOver (s : State) : State :=
  if patrolClaims s then { s with media := { s.media with passedOver := s.media.passedOver + 1 } } else s

/-- Whether a write phase that begins now owes a verify read (R69). -/
def owesVerify (s : State) (hostLine : Nat) (returned : Bool) : Bool :=
  returned || (isListed s hostLine && s.settings.verifyWrites)

/-- The write phase begins: verify owed is set and the MEDIA_WRITE is issued (R69). -/
def beginWrite (id : SlotId) (e : Entry) (ctx : Context) (s : State) : State :=
  issueWrite id ctx.mediaLine (writtenData ctx) (.host e.tag)
    (setEntryState e.tag
      (.executing { ctx with phase := .write, verifyOwed := owesVerify s e.hostLine ctx.returned }) s)

/-- The context that an entry takes at its first grant (R64, R65). Verify owed is no until the start of the write phase sets it,
where R64 names no value for it before (DESIGN CHOICE: assumption 29). -/
def newContext (s : State) (e : Entry) (phase : Phase) (data : Option LineData) : Context :=
  { mediaLine := translate s e.hostLine, phase := phase, verifyOwed := false, returned := false, lineData := data }

/-- Whether the first grant of a write asks for a job before any media operation: the line is listed LOST and auto_retire is
on (R68). -/
def retiresOnWrite (s : State) (hostLine : Nat) : Bool :=
  s.settings.autoRetire && ((suspectOf s hostLine).map Suspect.reason == some .lost)

/-- The first grant of a WRITE, or of a MASKED_WRITE with all flags set (R68): retire on write, which returns the slot FREE
when a job takes the data, or the write phase in the slot. The phase of the context is WRITE from this grant on, also where no
MEDIA_WRITE is issued and the entry passes to RETIRING, for which R64 and R69 name no phase (DESIGN CHOICE: assumption 28). -/
def firstWriteGrant (id : SlotId) (e : Entry) (data : LineData) (s : State) : State :=
  let ctx := newContext s e .write (some data)
  let started := patrolSeesWrite e.hostLine (setEntryState e.tag (.executing ctx) s)
  if retiresOnWrite started e.hostLine then
    match bufferRequest e.hostLine .hostWrite data (some e.tag) started with
    | (.refused, t) => beginWrite id e ctx t
    | (_, t) => passToRetiring e ctx t
  else beginWrite id e ctx started

/-- The first grant of a READY entry (R66, R68, R73). -/
def firstGrant (id : SlotId) (e : Entry) (s : State) : State :=
  match e.request with
  | .read =>
    let ctx := newContext s e .read none
    issueRead id ctx.mediaLine (.host e.tag) (setEntryState e.tag (.executing ctx) s)
  | .write data => firstWriteGrant id e data s
  | .maskedWrite data mask =>
    if mask = BitVec.allOnes 64 then firstWriteGrant id e data s
    else
      let ctx := newContext s e .mergeRead (some data)
      issueRead id ctx.mediaLine (.host e.tag)
        (patrolSeesWrite e.hostLine (setEntryState e.tag (.executing ctx) s))

/-- A later grant of an EXECUTING entry: its verify read, its merge write, or the write in place of a returned entry, which
takes its translation afresh (R65, R69, R72, R73). -/
def laterGrant (id : SlotId) (e : Entry) (ctx : Context) (s : State) : State :=
  match ctx.phase with
  | .verify => issueRead id ctx.mediaLine (.host e.tag) s
  | _ =>
    beginWrite id e (if ctx.returned then { ctx with mediaLine := translate s e.hostLine } else ctx) s

/-- A grant to an entry's claim. -/
def hostGrant (id : SlotId) (e : Entry) (s : State) : State :=
  let counted := countPassedOver s
  match e.state with
  | .ready => firstGrant id e counted
  | .executing ctx => laterGrant id e ctx counted
  | _ => counted

/-! ### The patrol's grants -/

/-- Whether the issue mark is SET at the read's grant (R161). -/
def markAtIssue (s : State) (hostLine : Nat) : Bool := hasExecutingWrite s hostLine || hasResidualWrite s hostLine

/-- A grant to the patrol claim: the passed-over count returns to 0 (R63), and the read or the writeback is issued (R161,
R164). -/
def patrolGrant (id : SlotId) (s : State) : State :=
  let zeroed := { s with media := { s.media with passedOver := 0 } }
  match s.patrol.step with
  | some st =>
    match st.state with
    | .waiting =>
      let line := translate s st.hostLine
      let reading :=
        { st with state := .reading, mediaLine := some line, mark := markAtIssue s st.hostLine }
      issueRead id line .patrol { zeroed with patrol := { zeroed.patrol with step := some reading } }
    | .writingBack d _ =>
      issueWrite id (st.mediaLine.getD 0) d .patrol
        { zeroed with patrol := { zeroed.patrol with step := some { st with state := .writingBack d true } } }
    | .reading => zeroed
  | none => zeroed

/-! ### Grants at the end of an event (R62) -/

/-- One grant: the FREE slot of lowest identifier goes to the winner. -/
def grant (id : SlotId) (w : Winner) (s : State) : State :=
  match w with
  | .journal r => issue id r .journal s
  | .retirement r => issue id r .retirement s
  | .patrol => patrolGrant id s
  | .host e => hostGrant id e s

/-- Grants are made one after another until no slot is FREE or no claim waits. The first argument bounds their number: a
grant fills one of the 8 slots, or returns its slot and takes an entry of the 32 to RETIRING (R55, R68; DEDUCED:
assumption 20). -/
def grantLoop : Nat → State → State
  | 0, s => s
  | n + 1, s =>
    match lowestFreeSlot s, winner s with
    | some id, some w => grantLoop n (grant id w s)
    | _, _ => s

/-- The grants of an event. -/
def settle (s : State) : State := grantLoop 48 s

end Sys2Proof.Machine
end

