-- ==== Sys2Proof/Machine/HostEvents.lean ====
section
/-! DEFINITION. Sys2Proof/Machine/HostEvents.lean: the events of the host channel: HOST_REQUEST, COMPLETION and LINK_RESET
(chapter 3). -/

namespace Sys2Proof.Machine

/-- The outputs of the step before are gone from the pins and channels (DESIGN CHOICE: assumption 2). -/
def clearOut (s : State) : State := { s with out := Outputs.none }

/-- An event of the part has its effect while RESETN is high; while RESETN is low it has none (R142, R187; DEDUCED:
assumption 6). -/
def whenUp (f : State → State) (s : State) : State := if s.pins.resetLow then clearOut s else f (clearOut s)

/-! ### HOST_REQUEST -/

/-- The tag in bits 4-0 of byte 1; bits 7-5 are ignored (R203). -/
def tagOf (tagByte : Byte) : Tag := ⟨tagByte.toNat % 32, Nat.mod_lt _ (by decide)⟩

/-- The request that a kind code names, with the contents the kind carries (R33, R203). -/
def requestOf (kind : Byte) (data : LineData) (mask : BitVec 64) : Option Request :=
  match kind.toNat with
  | 1 => some .read
  | 2 => some (.write data)
  | 3 => some (.maskedWrite data mask)
  | _ => none

/-- The first state of an admitted entry (R37, R41). -/
def firstState (s : State) (hostLine : Nat) (r : Request) : EntryState :=
  if s.channel.table.any (·.hostLine == hostLine) || hasResidual s hostLine then .waiting
  else if isLocked s hostLine then .held
  else readyState r

/-- The host counters at an admission (R37). -/
def countRequest (r : Request) (c : Counters) : Counters :=
  match r with
  | .read => { c with hostReads := satInc c.hostReads }
  | .write _ => { c with hostWrites := satInc c.hostWrites }
  | .maskedWrite _ _ => { c with hostMaskedWrites := satInc c.hostMaskedWrites }

/-- An admission (R37): the entry joins the table with the current arrival number, which rises by 1 and wraps (R38). -/
def admitRequest (tag : Tag) (hostLine : Nat) (r : Request) (s : State) : State :=
  { s with
    channel :=
      { s.channel with
        table :=
          s.channel.table
            ++ [{ tag := tag, request := r, hostLine := hostLine, arrival := s.channel.arrival,
                  state := firstState s hostLine r }]
        arrival := s.channel.arrival + 1 }
    counters := countRequest r s.counters }

/-- A request whose tag is in use is discarded (order 1 of R35). -/
def discardRequest (tag : Tag) (s : State) : State :=
  raiseProtocol tag { s with counters := { s.counters with protocolErrors := satInc s.counters.protocolErrors } }

/-- A request is refused with a completion sent at once (orders 2 and 3 of R35). -/
def refuseRequest (tag : Tag) (status : Status) (s : State) : State :=
  emitCompletion { tag := tag, status := status, data := none } s

/-- The arrival of a request: the checks of R35 in order, then the admission, whose claim may be granted at once (R37, R62,
R203). -/
def requestArrives (tag : Tag) (r : Option Request) (hostLine : Nat) (s : State) : State :=
  if (entryOf s tag).isSome then discardRequest tag s
  else if s.opState.serving = false then refuseRequest tag .notReady s
  else
    match r with
    | some q => if hostLine < hostLines s then settle (admitRequest tag hostLine q s) else refuseRequest tag .outOfRange s
    | none => refuseRequest tag .outOfRange s

/-- HOST_REQUEST (R35). -/
def execHostRequest (kind tagByte : Byte) (hostLine : BitVec 32) (data : LineData) (mask : BitVec 64) (s : State) :
    Host.Outcome State Fault Refusal :=
  .next (whenUp (requestArrives (tagOf tagByte) (requestOf kind data mask) hostLine.toNat) s)

/-! ### COMPLETION -/

/-- The channel takes the completion of a COMPLETING entry: it goes out, the entry leaves the table, and the next oldest of
its line is re-examined (R44). Where the tag has no COMPLETING entry no completion waits to be taken (DESIGN CHOICE:
assumption 7). -/
def takeCompletion (tag : Tag) (s : State) : State :=
  match entryOf s tag with
  | some e =>
    match e.state with
    | .completing status data _ =>
      reexamine e.hostLine
        { emitCompletion { tag := tag, status := status, data := data } s with
          channel := { s.channel with table := s.channel.table.filter fun x => x.tag != tag } }
    | _ => s
  | none => s

/-- COMPLETION (R44). -/
def execCompletion (tag : Tag) (s : State) : Host.Outcome State Fault Refusal :=
  .next (whenUp (fun t => settle (takeCompletion tag t)) s)

/-! ### LINK_RESET -/

/-- The slot that carries the operation of a tag's entry. -/
def slotOfTag (s : State) (tag : Tag) : Option SlotId :=
  (List.finRange 8).find? fun i =>
    match s.media.slots[i.val] with
    | .issued r => r.owner == .host tag
    | _ => false

/-- The residual operation of a phase (R51). -/
def residualOpOf : Phase → ResidualOp
  | .read => .read
  | .mergeRead => .mergeRead
  | .write => .write
  | .verify => .verify

/-- The residual operation record of an EXECUTING entry with an operation in flight (R49, R51). -/
def residualOf (s : State) (e : Entry) : Option Residual :=
  match e.state with
  | .executing ctx =>
    (slotOfTag s e.tag).map fun id =>
      { hostLine := e.hostLine, slot := id, op := residualOpOf ctx.phase, returned := ctx.returned }
  | _ => none

/-- A slot at LINK_RESET: owner HOST becomes RESIDUAL (R60). -/
def slotAtLinkReset : Slot → Slot
  | .issued r =>
    match r.owner with
    | .host _ => .issued { r with owner := .residual }
    | _ => .issued r
  | slot => slot

/-- The state after LINK_RESET (R49, R51, R52, R60, R61, R116), before the head job's wait is re-examined. -/
def linkResetValues (s : State) : State :=
  { s with
    channel :=
      { table := [], arrival := 0, residuals := s.channel.residuals ++ s.channel.table.filterMap (residualOf s) }
    media := { s.media with slots := s.media.slots.map slotAtLinkReset }
    queue := s.queue.map fun j => { j with originator := none } }

/-- Whether an EXECUTING entry of the head job's line leaves the table, an event at which its wait is re-examined (R102,
R116). -/
def headLineExecuting (s : State) : Bool :=
  match s.queue with
  | j :: _ => s.channel.table.any fun e => e.hostLine == j.hostLine && e.state.isExecuting
  | [] => false

/-- LINK_RESET (R49). R49 says that it raises no notice and changes no counter, and R102 and R116 re-examine at it a QUEUED head
job whose line had an EXECUTING entry; where that examination ends the job (the journal FAILED, or no FREE spare) or reserves a
spare, its notices, counters and listings are made within LINK_RESET, as R15, R101, R110 and R112 give them (DESIGN CHOICE:
assumption 31). -/
def linkReset (s : State) : State :=
  if headLineExecuting s then settle (runHead (linkResetValues s)) else settle (linkResetValues s)

/-- LINK_RESET (R49). -/
def execLinkReset (s : State) : Host.Outcome State Fault Refusal := .next (whenUp linkReset s)

end Sys2Proof.Machine
end

