-- ==== Sys2Proof/Machine/MediaEvents.lean ====
section
/-! DEFINITION. Sys2Proof/Machine/MediaEvents.lean: the events of the media channel and of the slot timers: READ_DATA,
WRITE_STATUS, OPERATION_TIMEOUT and QUARANTINE_EXPIRY (4.1). -/

namespace Sys2Proof.Machine

/-- An accepted READ_DATA: the slot becomes FREE, the decode is counted, and data and outcome go to the owner (R28, R30,
R56). -/
def acceptRead (id : SlotId) (owner : Owner) (o : DecodeOutcome) (d : LineData) (s : State) : State :=
  settle (deliver owner id (.read o d) (countDecode o.cls (setSlot id .free s)))

/-- The arrival of a READ_DATA: accepted for an ISSUED MEDIA_READ, discarded without decode otherwise (R56). -/
def readDataArrives (id : SlotId) (word : Codeword) (s : State) : State :=
  match s.media.slots[id.val] with
  | .issued { op := .read, owner := owner, .. } =>
    acceptRead id owner (decodeOutcome s.settings.heavyTotal word) (decodeData word) s
  | _ => s

/-- READ_DATA (R56). -/
def execReadData (id : SlotId) (word : Codeword) (s : State) : Host.Outcome State Fault Refusal :=
  .next (whenUp (readDataArrives id word) s)

/-- The end of a write operation: the slot becomes FREE and the owner is told (R57). -/
def endWrite (id : SlotId) (owner : Owner) (r : MediaResult) (s : State) : State :=
  settle (deliver owner id r (setSlot id .free s))

/-- A write is issued again at once under the same identifier, with the codeword kept in the record; try rises by 1 and the
timer restarts (R57). -/
def reissue (id : SlotId) (r : SlotRecord) (codeword : Codeword) (tries : Nat) (s : State) : State :=
  emitMedia (.write id r.line codeword)
    (setSlot id (.issued { r with op := .write codeword (tries + 1), timer := 0 }) s)

/-- The arrival of a WRITE_STATUS (R57). -/
def writeStatusArrives (id : SlotId) (status : WriteStatus) (s : State) : State :=
  match s.media.slots[id.val] with
  | .issued r =>
    match r.op, status with
    | .write _ _, .done => endWrite id r.owner .done s
    | .write codeword tries, .programFail =>
      if tries < 3 then reissue id r codeword tries s else endWrite id r.owner .exhausted s
    | .read, _ => s
  | _ => s

/-- WRITE_STATUS (R57). -/
def execWriteStatus (id : SlotId) (status : WriteStatus) (s : State) : Host.Outcome State Fault Refusal :=
  .next (whenUp (writeStatusArrives id status) s)

/-- media_timeouts rises by 1 (R58). -/
def countTimeout (s : State) : State :=
  { s with counters := { s.counters with mediaTimeouts := satInc s.counters.mediaTimeouts } }

/-- The timer of an ISSUED slot reaches 20 microseconds (R58). A slot that is not ISSUED has no such timer (DESIGN CHOICE:
assumption 7). -/
def operationTimesOut (id : SlotId) (s : State) : State :=
  match s.media.slots[id.val] with
  | .issued r =>
    settle (deliver r.owner id .timeout
      (raiseMediaTimeout r.line r.op (countTimeout (setSlot id (.quarantined 0) s))))
  | _ => s

/-- OPERATION_TIMEOUT (R58). -/
def execOperationTimeout (id : SlotId) (s : State) : Host.Outcome State Fault Refusal :=
  .next (whenUp (operationTimesOut id) s)

/-- The quarantine timer of a QUARANTINED slot reaches 80 microseconds (R59). A slot that is not QUARANTINED has no such
timer (DESIGN CHOICE: assumption 7). -/
def quarantineEnds (id : SlotId) (s : State) : State :=
  match s.media.slots[id.val] with
  | .quarantined _ => settle (setSlot id .free s)
  | _ => s

/-- QUARANTINE_EXPIRY (R59). -/
def execQuarantineExpiry (id : SlotId) (s : State) : Host.Outcome State Fault Refusal :=
  .next (whenUp (quarantineEnds id) s)

end Sys2Proof.Machine
end

