-- ==== Sys2Proof/Machine/TimerEvents.lean ====
section
/-! DEFINITION. Sys2Proof/Machine/TimerEvents.lean: the expiry of the patrol interval (9.2) and the millisecond tick with the
pace wrap (10.3). -/

namespace Sys2Proof.Machine

/-- Row 1 of R159: a step is in flight, and the expiry is counted as missed. -/
def missExpiry (s : State) : State :=
  { s with counters := { s.counters with patrolMissed := satInc s.counters.patrolMissed } }

/-- patrol_steps rises by 1 (R172). -/
def countStep (s : State) : State :=
  { s with counters := { s.counters with patrolSteps := satInc s.counters.patrolSteps } }

/-- Row 3 of R159: the locked cursor line is skipped with no read, and the cursor advances. -/
def skipLocked (s : State) : State := advanceCursor (tallySkipped (countSkipped (countStep s)))

/-- Row 4 of R159: a step begins at the cursor line. -/
def beginStep (s : State) : State :=
  countStep
    { s with
      patrol :=
        { s.patrol with
          step :=
            some { hostLine := s.patrol.cursor, sweep := s.patrol.sweep, state := .waiting, mediaLine := none,
                   mark := false } } }

/-- An expiry taken in READY, by the first row of R159 that applies. -/
def expiryInReady (s : State) : State :=
  if s.patrol.step.isSome then missExpiry s
  else if s.patrol.liveEnd < s.patrol.cursor then sweepEnd s
  else if isLocked s s.patrol.cursor then skipLocked s
  else beginStep s

/-- The interval timer expires and restarts from 0; in READY the expiry is acted on (R158, R159). With patrol_interval 0 no
expiry occurs. -/
def patrolExpires (s : State) : State :=
  if s.settings.patrolInterval = 0 then s
  else
    let restarted := { s with patrol := { s.patrol with timer := 0 } }
    if s.opState = .ready then settle (expiryInReady restarted) else restarted

/-- PATROL_EXPIRY (R159). -/
def execPatrolExpiry (s : State) : Host.Outcome State Fault Refusal := .next (whenUp patrolExpires s)

/-- One millisecond tick (R178): part time and the pace counter rise by 1; a pace counter that reaches pace_period returns
to 0 at the same tick and makes an alert request if a notice waits. -/
def tick (s : State) : State :=
  let wraps := s.settings.pacePeriod ≤ s.notices.pace + 1
  let risen :=
    { s with
      notices :=
        { s.notices with
          partTime := s.notices.partTime + 1
          pace := if wraps then 0 else s.notices.pace + 1
          tick := 0 } }
  if wraps ∧ s.notices.queue ≠ [] then alertRequest risen else risen

/-- MILLISECOND_TICK (R178). -/
def execMillisecondTick (s : State) : Host.Outcome State Fault Refusal := .next (whenUp tick s)

/-- PACE_WRAP: the tick at which the pace counter reaches pace_period (R178). Where the counter would not reach it at the
next tick there is no wrap (DESIGN CHOICE: assumptions 5 and 7). -/
def paceWraps (s : State) : State := if s.settings.pacePeriod ≤ s.notices.pace + 1 then tick s else s

/-- PACE_WRAP (R178). -/
def execPaceWrap (s : State) : Host.Outcome State Fault Refusal := .next (whenUp paceWraps s)

end Sys2Proof.Machine
end

