-- ==== Sys2Proof/Machine/Resets.lean ====
section
/-! DEFINITION. Sys2Proof/Machine/Resets.lean: power-up reset, RESETN low, the effect of RESTART, and the edges of PWARN
(chapter 8). -/

namespace Sys2Proof.Machine

/-- Every block at its power-up value (8.7), the straps sampled (R1), the pins as they are with RESETN high. -/
def powerUpValues (straps : BitVec 2) (s : State) : State :=
  { channel := .empty
    lineMap := .empty
    media := { slots := Vector.replicate 8 .free, passedOver := 0 }
    suspects := []
    queue := []
    journal := .empty
    opState := .rebuild
    haltCause := .none
    patrol := .initial (.default straps)
    notices := .empty
    port := .empty
    settings := .default straps
    counters := .zero
    straps := straps
    pins := { s.pins with resetLow := false }
    out := .none
    pending := s.pending }

/-- POWER_UP_RESET (R142): every block at its power-up value, and the rebuild begins (R144). -/
def execPowerUpReset (straps : BitVec 2) (s : State) : Host.Outcome State Fault Refusal :=
  .next (settle (beginRebuild (powerUpValues straps s)))

/-- RESETN_ASSERTED (R142): RESETN is low; ALERT is released with its armed request, the service port answers nothing, and no
event has an effect until the release (DEDUCED: assumption 6). -/
def execResetnAsserted (s : State) : Host.Outcome State Fault Refusal :=
  .next
    { clearOut s with
      pins := { s.pins with resetLow := true }
      notices := { s.notices with alert := false, armed := false }
      port := { s.port with selection := .none } }

/-- A slot at RESTART: ISSUED becomes QUARANTINED with its timer at 0; the others are kept (R60). -/
def slotAtRestart : Slot → Slot
  | .issued _ => .quarantined 0
  | slot => slot

/-- Every block at its RESTART value (8.7): the settings, the sampled straps and the slots' quarantines are kept, and the
staged region is adopted as live (R171). -/
def restartValues (s : State) : State :=
  { s with
    channel := .empty
    lineMap := .empty
    media := { slots := s.media.slots.map slotAtRestart, passedOver := 0 }
    suspects := []
    queue := []
    journal := .empty
    opState := .rebuild
    haltCause := .none
    patrol := .initial s.settings
    notices := .empty
    port := .empty
    counters := .zero }

/-- Whether a RESTART frame has been taken in the selection in progress (R195). -/
def restartTaken (s : State) : Bool :=
  match s.port.selection with
  | .frame f => f.code == 16 && f.length == 0
  | _ => false

/-- The rise of SCS that ends a RESTART's selection (R143, R195); with no RESTART frame taken there is none to take effect
(DESIGN CHOICE: assumption 7). -/
def restartTakesEffect (s : State) : State :=
  if restartTaken s then settle (beginRebuild (restartValues s)) else s

/-- RESTART_EFFECT (R143). -/
def execRestartEffect (s : State) : Host.Outcome State Fault Refusal := .next (whenUp restartTakesEffect s)

/-- The entry to QUIESCING from READY: a waiting writeback claim is withdrawn (R170) and the drain check is made (R153,
R154). -/
def enterQuiescing (s : State) : State :=
  settle (drainCheck (patrolSeesQuiesce { s with opState := .quiescing }))

/-- PWARN passes from deasserted to asserted (R153): a READY part passes to QUIESCING. While RESETN is low the level alone
changes. -/
def pwarnRises (s : State) : State :=
  let raised := { s with pins := { s.pins with pwarn := true } }
  if s.pins.pwarn = false ∧ s.pins.resetLow = false ∧ s.opState = .ready then enterQuiescing raised else raised

/-- PWARN_ASSERTED (R153). -/
def execPwarnAsserted (s : State) : Host.Outcome State Fault Refusal := .next (pwarnRises (clearOut s))

/-- PWARN_DEASSERTED (R153): the level changes, and nothing else. -/
def execPwarnDeasserted (s : State) : Host.Outcome State Fault Refusal :=
  .next { clearOut s with pins := { s.pins with pwarn := false } }

end Sys2Proof.Machine
end

