-- ==== Sys2Proof/Machine/ServicePort.lean ====
section
/-! DEFINITION. Sys2Proof/Machine/ServicePort.lean: the taking of a command frame (R188 to R191), POLL and the release of a
response (R192), frames with no command of their own (R190), and RESTART (R195). -/

namespace Sys2Proof.Machine

/-- What a command gives the port at the event of its frame: an answer to hold, or PENDING (R189). -/
inductive Reply where
  | answer (status : ServiceStatus) (results : List Byte)
  | pending
deriving DecidableEq, Repr

/-- The answer of a refused frame: a status and no results (R190). -/
def refuse (status : ServiceStatus) : Reply := .answer status []

/-- A frame is received in a selection of its own (R187, R188; DEDUCED: assumption 18). -/
def receive (f : Frame) (s : State) : State := { s with port := { s.port with selection := .frame f } }

/-- The admission byte goes out (R188). -/
def emitAdmission (a : Admission) (s : State) : State := { s with out := { s.out with admission := some a } }

/-- The command state takes a command's reply; a held response is discarded unread (R189). -/
def holdReply (code : Byte) (r : Reply) (s : State) : State :=
  let state :=
    match r with
    | .answer status results => CommandState.answered { status := status, code := code, results := results }
    | .pending => .pending code
  emitAdmission .accepted { s with port := { s.port with command := state } }

/-- A completed frame is judged: BUSY while a command is PENDING (row 1 of R190), and otherwise ACCEPTED and answered as
`answer` gives. While a taken RESTART waits for the end of its selection, later bytes of the selection are ignored
(R188). -/
def takeFrame (f : Frame) (answer : State → Reply × State) (s : State) : State :=
  if restartTaken s then s
  else
    match s.port.command with
    | .pending _ => emitAdmission .busy (receive f s)
    | _ =>
      let answered := answer (receive f s)
      holdReply f.code answered.1 answered.2

/-- A command frame with its operand bytes is taken. -/
def serve (code : Byte) (operands : List Byte) (answer : State → Reply × State) (s : State) :
    Host.Outcome State Fault Refusal :=
  .next (whenUp (takeFrame (frameOf code operands) answer) s)

/-! ### Frames with no command of their own -/

/-- UNKNOWN_COMMAND_FRAME (R190, R204): BUSY, BAD_LENGTH or BAD_COMMAND. A term that spells no such frame is refused. -/
def execUnknownCommandFrame (code length : Byte) (operands : List Byte) (s : State) : Host.Outcome State Fault Refusal :=
  if isUnknownFrame code length operands then
    .next (whenUp
      (takeFrame { code := code, length := length, operands := operands }
        fun t => (refuse ((frameFault code length).getD .badCommand), t)) s)
  else .refused .illFormed

/-! ### POLL -/

/-- The response that a POLL shifts out, and whether it is the held response (R192). -/
def pollResponse : CommandState → Response × Bool
  | .none => ({ status := .none, code := 0, results := [] }, false)
  | .pending code => ({ status := .pending, code := code, results := [] }, false)
  | .answered r => (r, true)

/-- The first byte of a POLL fixes the response it shifts out (R192). -/
def takePoll (s : State) : State :=
  if restartTaken s then s
  else
    { s with
      port := { s.port with selection := .poll (pollResponse s.port.command).1 (pollResponse s.port.command).2 }
      out := { s.out with pollResponse := some (pollResponse s.port.command).1 } }

/-- POLL (R192). -/
def execPoll (s : State) : Host.Outcome State Fault Refusal := .next (whenUp takePoll s)

/-- SCS rises after the last byte of a POLL's response: a held response is released and the state becomes NONE; a POLL that
returned NONE or PENDING changes nothing else (R192). With no POLL in progress there is nothing to release
(DESIGN CHOICE: assumption 7). -/
def releaseResponse (s : State) : State :=
  match s.port.selection with
  | .poll _ true => { s with port := { command := .none, selection := .none } }
  | .poll _ false => { s with port := { s.port with selection := .none } }
  | _ => s

/-- RESPONSE_RELEASE (R192). -/
def execResponseRelease (s : State) : Host.Outcome State Fault Refusal := .next (whenUp releaseResponse s)

/-! ### RESTART -/

/-- The command state after a RESTART frame is taken: a held response is discarded, and a pending command goes on until the
effect (R189, R195). -/
def afterRestartFrame : CommandState → CommandState
  | .answered _ => .none
  | c => c

/-- A RESTART frame is ACCEPTED in every command state; its effect waits for the end of the selection (R195). -/
def takeRestart (s : State) : State :=
  if restartTaken s then s
  else
    emitAdmission .accepted
      { receive (frameOf 16 []) s with
        port := { command := afterRestartFrame s.port.command, selection := .frame (frameOf 16 []) } }

/-- RESTART (R195). -/
def execRestart (s : State) : Host.Outcome State Fault Refusal := .next (whenUp takeRestart s)

end Sys2Proof.Machine
end

