-- ==== Sys2Proof/Machine/ServiceReads.lean ====
section
/-! DEFINITION. Sys2Proof/Machine/ServiceReads.lean: the reading commands (R193): GET_STATUS, GET_COUNTERS, READ_SETTING,
LOOKUP_LINE, READ_SPARE, READ_SUSPECT, TAKE_NOTICE and PEEK_NOTICE, and READ_JOURNAL_SLOT (R137, R196). -/

namespace Sys2Proof.Machine

/-! ### GET_STATUS -/

/-- The number of flags set in the bitmap copy (R125). -/
def flagsSet (flags : BitVec 1024) : Nat := ((List.range 1024).filter flags.getLsbD).length

/-- The 66 bytes of GET_STATUS, in the order of R197 (12.4). -/
def statusBytes (s : State) : List Byte :=
  n8 (opStateCode s.opState) ++ n8 (haltCauseCode s.haltCause)
    ++ n8 s.straps.toNat ++ n32 (mediaLinesOf s.straps) ++ n32 (hostLines s)
    ++ n8 (journalStateCode s.journal.state) ++ n8 (halfCode s.journal.active) ++ be32 s.journal.generation
    ++ n16 s.journal.tail ++ n16 (freeSlots s) ++ n16 (flagsSet s.journal.bitmap)
    ++ (match s.journal.uncertain with | some k => n16 k | none => absent 2)
    ++ n16 s.lineMap.entries.length ++ n16 (spareCount .free s) ++ n16 (spareCount .reserved s)
    ++ n16 (spareCount .inUse s) ++ n16 (spareCount .discarded s)
    ++ n8 s.suspects.length ++ n8 s.queue.length
    ++ n8 s.notices.queue.length ++ be16 s.notices.sequence ++ be32 s.notices.partTime ++ n8 s.notices.pace
    ++ n8 (flagCode s.notices.alert) ++ n8 (flagCode s.notices.armed)
    ++ be32 s.patrol.sweep ++ n32 s.patrol.cursor ++ n32 s.patrol.liveStart ++ n32 s.patrol.liveEnd
    ++ n8 (modeCode s.patrol.liveMode) ++ n8 (flagCode s.patrol.parity) ++ n8 (flagCode s.patrol.step.isSome)

/-- GET_STATUS (R197). -/
def execGetStatus (s : State) : Host.Outcome State Fault Refusal :=
  serve 1 [] (fun t => (.answer .done (statusBytes t), t)) s

/-! ### GET_COUNTERS -/

/-- The 68 bytes of GET_COUNTERS, in index order (12.4, 12.6). -/
def counterBytes (c : Counters) : List Byte := c.inOrder.flatMap be32

/-- GET_COUNTERS: the values in force, and all seventeen cleared when the clear flag is set (R200, R204). -/
def answerGetCounters (clear : Byte) (s : State) : Reply × State :=
  if clear = 0 then (.answer .done (counterBytes s.counters), s)
  else if clear = 1 then (.answer .done (counterBytes s.counters), { s with counters := .zero })
  else (refuse .badArgument, s)

/-- GET_COUNTERS (R200). -/
def execGetCounters (clear : Byte) (s : State) : Host.Outcome State Fault Refusal :=
  serve 2 [clear] (answerGetCounters clear) s

/-! ### READ_SETTING -/

/-- READ_SETTING: index and value in force (R198). -/
def answerReadSetting (index : Byte) (s : State) : Reply × State :=
  match settingValue s.settings index with
  | some v => (.answer .done (index :: be32 v), s)
  | none => (refuse .badArgument, s)

/-- READ_SETTING (R198). -/
def execReadSetting (index : Byte) (s : State) : Host.Outcome State Fault Refusal :=
  serve 3 [index] (answerReadSetting index) s

/-! ### TAKE_NOTICE and PEEK_NOTICE -/

/-- TAKE_NOTICE: the count remaining, then the oldest notice, removed (R176, R193). -/
def answerTakeNotice (s : State) : Reply × State :=
  match s.notices.queue with
  | [] => (refuse .empty, s)
  | n :: rest =>
    (.answer .done (n8 rest.length ++ noticeBytes n), { s with notices := { s.notices with queue := rest } })

/-- TAKE_NOTICE (R176). -/
def execTakeNotice (s : State) : Host.Outcome State Fault Refusal := serve 5 [] answerTakeNotice s

/-- PEEK_NOTICE: the count in the queue, then the oldest notice (R176, R193). -/
def answerPeekNotice (s : State) : Reply × State :=
  match s.notices.queue with
  | [] => (refuse .empty, s)
  | n :: rest => (.answer .done (n8 (rest.length + 1) ++ noticeBytes n), s)

/-- PEEK_NOTICE (R176). -/
def execPeekNotice (s : State) : Host.Outcome State Fault Refusal := serve 6 [] answerPeekNotice s

/-! ### LOOKUP_LINE -/

/-- Bytes 0 to 11 of LOOKUP_LINE: the mapping (R18). -/
def mappingBytes (s : State) (hostLine : Nat) : List Byte :=
  match mapEntry s hostLine with
  | some e =>
    n8 1 ++ n32 (translate s hostLine) ++ n16 e.spare.val ++ n8 (originCode e.origin) ++ be32 e.generation
  | none => n8 0 ++ n32 (translate s hostLine) ++ absent 2 ++ absent 1 ++ absent 4

/-- Bytes 12 to 20 of LOOKUP_LINE: the suspect entry with its position (R90). -/
def suspectBytes (s : State) (hostLine : Nat) : List Byte :=
  match suspectOf s hostLine with
  | some e =>
    n8 1 ++ n8 (reasonCode e.reason) ++ n8 e.hits ++ be32 e.sweep ++ n8 (originCode e.origin)
      ++ n8 (s.suspects.findIdx (·.hostLine == hostLine))
  | none => n8 0 ++ absent 1 ++ absent 1 ++ absent 4 ++ absent 1 ++ absent 1

/-- Bytes 21 to 32 of LOOKUP_LINE: the lock state with the job's fields (R117). -/
def jobBytes (s : State) (hostLine : Nat) : List Byte :=
  match jobOf s hostLine with
  | some j =>
    n8 1 ++ n8 (s.queue.findIdx (·.hostLine == hostLine)) ++ n8 (jobStateCode j.state) ++ n8 (jobKindCode j.kind)
      ++ (match j.kind.oldSpare with | some o => n16 o.val | none => absent 2)
      ++ n8 (sourceCode j.source) ++ n8 (originCode j.origin) ++ n8 j.attempts
      ++ (match j.reserved with | some r => n16 r.val | none => absent 2)
      ++ n8 (flagCode j.originator.isSome)
  | none => n8 0 ++ absent 1 ++ absent 1 ++ absent 1 ++ absent 2 ++ absent 1 ++ absent 1 ++ absent 1 ++ absent 2 ++ absent 1

/-- LOOKUP_LINE: 33 bytes; BAD_ARGUMENT at HostLines or above (R4, R18, R90, R117). -/
def answerLookupLine (hostLine : Nat) (s : State) : Reply × State :=
  if hostLine < hostLines s then
    (.answer .done (mappingBytes s hostLine ++ suspectBytes s hostLine ++ jobBytes s hostLine), s)
  else (refuse .badArgument, s)

/-- LOOKUP_LINE (R18). -/
def execLookupLine (hostLine : BitVec 32) (s : State) : Host.Outcome State Fault Refusal :=
  serve 8 (be32 hostLine) (answerLookupLine hostLine.toNat) s

/-! ### READ_SPARE -/

/-- The host line that a spare serves, or is RESERVED for by the head job (R18, R117). -/
def spareHostLine (s : State) (spare : Spare) : Option Nat :=
  match spareState s spare with
  | .inUse => (entryOfSpare s spare).map MapEntry.hostLine
  | .reserved => s.queue.head?.map Job.hostLine
  | _ => none

/-- READ_SPARE: state, media line, and the host line of an IN_USE or RESERVED spare; BAD_ARGUMENT at 1024 or above (R4,
R18, DEDUCED: assumption 9). -/
def answerReadSpare (spare : BitVec 16) (s : State) : Reply × State :=
  match spareOf spare with
  | some i =>
    (.answer .done
      (n8 (spareStateCode (spareState s i)) ++ n16 (spareAddress i)
        ++ (match spareHostLine s i with | some h => n32 h | none => absent 4)), s)
  | none => (refuse .badArgument, s)

/-- READ_SPARE (R18). -/
def execReadSpare (spare : BitVec 16) (s : State) : Host.Outcome State Fault Refusal :=
  serve 9 (be16 spare) (answerReadSpare spare) s

/-! ### READ_SUSPECT -/

/-- READ_SUSPECT: the entry at a position; EMPTY at or beyond the count, BAD_ARGUMENT at 64 or above (R90). -/
def answerReadSuspect (position : Nat) (s : State) : Reply × State :=
  if 64 ≤ position then (refuse .badArgument, s)
  else
    match s.suspects[position]? with
    | some e =>
      (.answer .done
        (n32 e.hostLine ++ n8 (reasonCode e.reason) ++ n8 e.hits ++ be32 e.sweep ++ n8 (originCode e.origin)), s)
    | none => (refuse .empty, s)

/-- READ_SUSPECT (R90). -/
def execReadSuspect (position : Byte) (s : State) : Host.Outcome State Fault Refusal :=
  serve 10 [position] (answerReadSuspect position.toNat) s

/-! ### READ_JOURNAL_SLOT -/

/-- READ_JOURNAL_SLOT: BAD_ARGUMENT for another half code or a slot of 2045 or above; otherwise PENDING, and the read is
presented by the Journal Controller when its claim allows (R137, R196, R204). R150 says that the command lets the board
controller read the headers and bitmap lines too; by R137, R196 and R3 it names the record slots alone, at offsets 3 to 2047,
and the model follows these: no operand names a header or a bitmap line (DESIGN CHOICE: assumption 32). -/
def answerReadJournalSlot (half : Byte) (slot : BitVec 16) (s : State) : Reply × State :=
  match halfOf half with
  | some h =>
    if slot.toNat < 2045 then
      (.pending, settle (presentNext { s with journal := { s.journal with service := some (h, slot.toNat) } }))
    else (refuse .badArgument, s)
  | none => (refuse .badArgument, s)

/-- READ_JOURNAL_SLOT (R137). -/
def execReadJournalSlot (half : Byte) (slot : BitVec 16) (s : State) : Host.Outcome State Fault Refusal :=
  serve 18 (half :: be16 slot) (answerReadJournalSlot half slot) s

end Sys2Proof.Machine
end

