-- ==== Sys2Proof/Machine/ServiceActions.lean ====
section
/-! DEFINITION. Sys2Proof/Machine/ServiceActions.lean: the acting commands (R194): WRITE_SETTING, ACK_ALERT, CLEAR_SUSPECT,
RETIRE_LINE, RESTART_SWEEP, QUIESCE, RESUME, and INITIALIZE_JOURNAL (R151, R196). -/

namespace Sys2Proof.Machine

/-! ### WRITE_SETTING -/

/-- The effect of an accepted write beyond the setting itself: patrol_interval restarts the interval timer (R158), and a
pace_period at or below the pace counter sets the counter to 0 (R179). -/
def settingWritten (index : Byte) (s : State) : State :=
  match index.toNat with
  | 0 => { s with patrol := { s.patrol with timer := 0 } }
  | 10 =>
    if s.settings.pacePeriod ≤ s.notices.pace then { s with notices := { s.notices with pace := 0 } } else s
  | _ => s

/-- WRITE_SETTING: index and value in force; BAD_ARGUMENT, with nothing changed, out of range (R198, R199, R204). -/
def answerWriteSetting (index : Byte) (value : BitVec 32) (s : State) : Reply × State :=
  match writtenSettings s.settings (hostLines s) index value with
  | some st =>
    (.answer .done (index :: be32 ((settingValue st index).getD 0)), settingWritten index { s with settings := st })
  | none => (refuse .badArgument, s)

/-- WRITE_SETTING (R198). -/
def execWriteSetting (index : Byte) (value : BitVec 32) (s : State) : Host.Outcome State Fault Refusal :=
  serve 4 (index :: be32 value) (answerWriteSetting index value) s

/-! ### ACK_ALERT -/

/-- ACK_ALERT (R183): the line is released; with an armed request the flag is cleared, and where a notice waits the line is
asserted again and a pace counter at or above the half-period is lowered by it. -/
def ackAlert (s : State) : State :=
  if s.notices.alert = false then s
  else if s.notices.armed = false then { s with notices := { s.notices with alert := false } }
  else if s.notices.queue = [] then { s with notices := { s.notices with alert := false, armed := false } }
  else
    { s with
      notices :=
        { s.notices with
          alert := true
          armed := false
          pace := if halfPeriod s ≤ s.notices.pace then s.notices.pace - halfPeriod s else s.notices.pace } }

/-- ACK_ALERT is answered with the state of ALERT and the armed flag after it (R183). -/
def answerAckAlert (s : State) : Reply × State :=
  (.answer .done (n8 (flagCode (ackAlert s).notices.alert) ++ n8 (flagCode (ackAlert s).notices.armed)), ackAlert s)

/-- ACK_ALERT (R183). -/
def execAckAlert (s : State) : Host.Outcome State Fault Refusal := serve 7 [] answerAckAlert s

/-! ### CLEAR_SUSPECT -/

/-- CLEAR_SUSPECT: the entry removed and the was-listed flag; BAD_ARGUMENT at HostLines or above (R4, R88). -/
def answerClearSuspect (hostLine : Nat) (s : State) : Reply × State :=
  if hostLine < hostLines s then
    (.answer .done (n8 (flagCode (isListed s hostLine))), removeSuspect hostLine s)
  else (refuse .badArgument, s)

/-- CLEAR_SUSPECT (R88). -/
def execClearSuspect (hostLine : BitVec 32) (s : State) : Host.Outcome State Fault Refusal :=
  serve 11 (be32 hostLine) (answerClearSuspect hostLine.toNat) s

/-! ### RETIRE_LINE -/

/-- RETIRE_LINE, answered by the first row of R98 that applies. -/
def answerRetireLine (hostLine : Nat) (s : State) : Reply × State :=
  if hostLines s ≤ hostLine then (refuse .badArgument, s)
  else if s.opState ≠ .ready ∨ s.journal.state = .failed then (refuse .wrongState, s)
  else if isLocked s hostLine then (.answer .done (n8 0), s)
  else if 8 ≤ s.queue.length then (refuse .busy, s)
  else (.answer .done (n8 1), settle (examineLine hostLine (enqueue hostLine .command none none s)))

/-- RETIRE_LINE (R98). -/
def execRetireLine (hostLine : BitVec 32) (s : State) : Host.Outcome State Fault Refusal :=
  serve 12 (be32 hostLine) (answerRetireLine hostLine.toNat) s

/-! ### RESTART_SWEEP, QUIESCE, RESUME -/

/-- RESTART_SWEEP: the current sweep ends at once; WRONG_STATE outside READY, QUIESCING and QUIET (R169). -/
def answerRestartSweep (s : State) : Reply × State :=
  if s.opState.serving then (.answer .done [], sweepEnd s) else (refuse .wrongState, s)

/-- RESTART_SWEEP (R169). -/
def execRestartSweep (s : State) : Host.Outcome State Fault Refusal := serve 13 [] answerRestartSweep s

/-- QUIESCE (R153): READY passes to QUIESCING; no change in QUIESCING and QUIET; WRONG_STATE elsewhere. -/
def answerQuiesce (s : State) : Reply × State :=
  if s.opState = .ready then (.answer .done [], enterQuiescing s)
  else if s.opState.serving then (.answer .done [], s)
  else (refuse .wrongState, s)

/-- QUIESCE (R153). -/
def execQuiesce (s : State) : Host.Outcome State Fault Refusal := serve 14 [] answerQuiesce s

/-- RESUME (R155): QUIESCING and QUIET pass to READY; no change in READY; WRONG_STATE elsewhere. -/
def answerResume (s : State) : Reply × State :=
  if s.opState.serving then (.answer .done [], { s with opState := .ready }) else (refuse .wrongState, s)

/-- RESUME (R155). -/
def execResume (s : State) : Host.Outcome State Fault Refusal := serve 15 [] answerResume s

/-! ### INITIALIZE_JOURNAL -/

/-- INITIALIZE_JOURNAL: in UNFORMATTED the command goes PENDING and its first write is presented; WRONG_STATE elsewhere
(R151, R196). -/
def answerInitializeJournal (s : State) : Reply × State :=
  if s.opState = .unformatted then
    (.pending, settle (presentNext { s with journal := { s.journal with work := .formatting 0 } }))
  else (refuse .wrongState, s)

/-- INITIALIZE_JOURNAL (R151). -/
def execInitializeJournal (s : State) : Host.Outcome State Fault Refusal := serve 17 [] answerInitializeJournal s

end Sys2Proof.Machine
end

