-- ==== Sys2Proof/Machine/Dispatch.lean ====
section
/-! DEFINITION. Sys2Proof/Machine/Dispatch.lean: one arm per row of the table of commands and events. -/

namespace Sys2Proof.Machine

def exec (i : Instr) (s : State) : Host.Outcome State Fault Refusal :=
  match i with
  | .hostRequest kind tagByte hostLine data mask => Sys2Proof.Machine.execHostRequest kind tagByte hostLine data mask s
  | .completion tag => Sys2Proof.Machine.execCompletion tag s
  | .linkReset => Sys2Proof.Machine.execLinkReset s
  | .powerUpReset straps => Sys2Proof.Machine.execPowerUpReset straps s
  | .pwarnAsserted => Sys2Proof.Machine.execPwarnAsserted s
  | .readData id word => Sys2Proof.Machine.execReadData id word s
  | .writeStatus id status => Sys2Proof.Machine.execWriteStatus id status s
  | .operationTimeout id => Sys2Proof.Machine.execOperationTimeout id s
  | .quarantineExpiry id => Sys2Proof.Machine.execQuarantineExpiry id s
  | .patrolExpiry => Sys2Proof.Machine.execPatrolExpiry s
  | .millisecondTick => Sys2Proof.Machine.execMillisecondTick s
  | .paceWrap => Sys2Proof.Machine.execPaceWrap s
  | .getStatus => Sys2Proof.Machine.execGetStatus s
  | .getCounters clear => Sys2Proof.Machine.execGetCounters clear s
  | .readSetting index => Sys2Proof.Machine.execReadSetting index s
  | .writeSetting index value => Sys2Proof.Machine.execWriteSetting index value s
  | .takeNotice => Sys2Proof.Machine.execTakeNotice s
  | .peekNotice => Sys2Proof.Machine.execPeekNotice s
  | .ackAlert => Sys2Proof.Machine.execAckAlert s
  | .lookupLine hostLine => Sys2Proof.Machine.execLookupLine hostLine s
  | .readSpare spare => Sys2Proof.Machine.execReadSpare spare s
  | .readSuspect position => Sys2Proof.Machine.execReadSuspect position s
  | .clearSuspect hostLine => Sys2Proof.Machine.execClearSuspect hostLine s
  | .retireLine hostLine => Sys2Proof.Machine.execRetireLine hostLine s
  | .restartSweep => Sys2Proof.Machine.execRestartSweep s
  | .quiesce => Sys2Proof.Machine.execQuiesce s
  | .resume => Sys2Proof.Machine.execResume s
  | .restart => Sys2Proof.Machine.execRestart s
  | .restartEffect => Sys2Proof.Machine.execRestartEffect s
  | .initializeJournal => Sys2Proof.Machine.execInitializeJournal s
  | .readJournalSlot half slot => Sys2Proof.Machine.execReadJournalSlot half slot s
  | .unknownCommandFrame code length operands => Sys2Proof.Machine.execUnknownCommandFrame code length operands s
  | .poll => Sys2Proof.Machine.execPoll s
  | .responseRelease => Sys2Proof.Machine.execResponseRelease s
  | .pwarnDeasserted => Sys2Proof.Machine.execPwarnDeasserted s
  | .resetnAsserted => Sys2Proof.Machine.execResetnAsserted s

end Sys2Proof.Machine
end

