-- ==== Sys2Proof/Machine/Timers.lean ====
section
/-! DEFINITION. Sys2Proof/Machine/Timers.lean: the part's own clock: what a step does when no command waits (DESIGN CHOICE:
assumption 4). One microsecond passes at a time, and an expiry that is due is taken before time passes further. -/

namespace Sys2Proof.Machine

/-- A slot's timer one microsecond later: the operation timer of an ISSUED slot, the quarantine timer of a QUARANTINED one
(R54, R59). -/
def slotLater : Slot → Slot
  | .issued r => .issued { r with timer := r.timer + 1 }
  | .quarantined t => .quarantined (t + 1)
  | .free => .free

/-- One microsecond passes: the slot timers, the interval timer while patrol_interval is not 0 (R158), and the count towards
the next millisecond tick (R178). While RESETN is low no timer runs. -/
def passMicrosecond (s : State) : State :=
  if s.pins.resetLow then s
  else
    { s with
      media := { s.media with slots := s.media.slots.map slotLater }
      patrol := { s.patrol with timer := if s.settings.patrolInterval = 0 then 0 else s.patrol.timer + 1 }
      notices := { s.notices with tick := s.notices.tick + 1 } }

/-- The expiry due at a slot: 20 microseconds for an operation (R58), 80 for a quarantine (R59). -/
def dueAtSlot (s : State) (id : SlotId) : Option Instr :=
  match s.media.slots[id.val] with
  | .issued r => if 20 ≤ r.timer then some (.operationTimeout id) else none
  | .quarantined t => if 80 ≤ t then some (.quarantineExpiry id) else none
  | .free => none

/-- The interval expiry, when due: at patrol_interval units of 10 microseconds (R158). -/
def dueAtPatrol (s : State) : Option Instr :=
  if s.settings.patrolInterval ≠ 0 ∧ s.settings.patrolInterval * 10 ≤ s.patrol.timer then some .patrolExpiry else none

/-- The millisecond tick, when due, as the wrap where the pace counter reaches pace_period at it (R178). -/
def dueAtTick (s : State) : Option Instr :=
  if 1000 ≤ s.notices.tick then
    some (if s.settings.pacePeriod ≤ s.notices.pace + 1 then .paceWrap else .millisecondTick)
  else none

/-- The expiry that is taken next: the slots by identifier, then the patrol interval, then the tick (DESIGN CHOICE: assumption 4).
While RESETN is low none is due. -/
def nextDue (s : State) : Option Instr :=
  if s.pins.resetLow then none
  else ((List.finRange 8).findSome? (dueAtSlot s)).or ((dueAtPatrol s).or (dueAtTick s))

/-- What the part does by itself: the expiry that is due, or the passing of one microsecond. -/
def idle (s : State) : Host.Outcome State Fault Refusal :=
  match nextDue s with
  | some c => exec c s
  | none => .next (passMicrosecond (clearOut s))

end Sys2Proof.Machine
end

