-- ==== Sys2Proof/WellFormed.lean ====
section
/-! DEFINITION. Sys2Proof/WellFormed.lean: which terms of Instr spell a command or event of the part. The operand types bound
every operand but those of UNKNOWN_COMMAND_FRAME. -/

namespace Sys2Proof

/-- A term is well formed when it spells an event of its row. -/
def Instr.wf : Instr → Bool
  | .hostRequest _ _ _ _ _ => true
  | .completion _ => true
  | .linkReset => true
  | .powerUpReset _ => true
  | .pwarnAsserted => true
  | .readData _ _ => true
  | .writeStatus _ _ => true
  | .operationTimeout _ => true
  | .quarantineExpiry _ => true
  | .patrolExpiry => true
  | .millisecondTick => true
  | .paceWrap => true
  | .getStatus => true
  | .getCounters _ => true
  | .readSetting _ => true
  | .writeSetting _ _ => true
  | .takeNotice => true
  | .peekNotice => true
  | .ackAlert => true
  | .lookupLine _ => true
  | .readSpare _ => true
  | .readSuspect _ => true
  | .clearSuspect _ => true
  | .retireLine _ => true
  | .restartSweep => true
  | .quiesce => true
  | .resume => true
  | .restart => true
  | .restartEffect => true
  | .initializeJournal => true
  | .readJournalSlot _ _ => true
  | .unknownCommandFrame code length operands => Machine.isUnknownFrame code length operands
  | .poll => true
  | .responseRelease => true
  | .pwarnDeasserted => true
  | .resetnAsserted => true

end Sys2Proof
end

