-- ==== Sys2Proof/Safety.lean ====
section
/-! DEFINITION. Sys2Proof/Safety.lean: what the manual calls "a law of the part", as predicates on the state, in the terms the
claims use. A state that a run reaches from reset meets them all; each is stated as an invariant of every step. -/

namespace Sys2Proof.Safety

open Sys2Proof.Machine

/-- The Notice Queue holds at most 32 notices (R174), and a request is armed only while ALERT is ASSERTED (R180). -/
abbrev NoticeLaw (s : State) : Prop :=
  s.notices.queue.length ≤ 32 ∧ (s.notices.armed = true → s.notices.alert = true)

/-- The Suspect List holds at most 64 entries, and no two for one host line (R77). -/
abbrev SuspectLaw (s : State) : Prop := s.suspects.length ≤ 64 ∧ (s.suspects.map Suspect.hostLine).Nodup

/-- The Retirement Queue holds at most 8 jobs, and no two for one host line (R93). -/
abbrev QueueLaw (s : State) : Prop := s.queue.length ≤ 8 ∧ (s.queue.map Job.hostLine).Nodup

/-- No two entries of the Request Table have one tag, and an entry behind an older one of its host line is WAITING (R39,
R45). With 32 tags the table then holds at most 32 entries, and of the entries of a line at most the oldest is
EXECUTING, RETIRING, READY, HELD or COMPLETING. -/
abbrev TableLaw (s : State) : Prop :=
  (s.channel.table.map Entry.tag).Nodup
    ∧ s.channel.table.Pairwise fun older younger => older.hostLine = younger.hostLine → younger.state = .waiting

/-- The passed-over count lies between 0 and 16 (R61). -/
abbrev PassedOverLaw (s : State) : Prop := s.media.passedOver ≤ 16

/-- Every setting lies in its range, and the staged patrol start does not exceed the staged end (R198, R199). -/
abbrev SettingsLaw (s : State) : Prop :=
  s.settings.patrolInterval ≤ 65535 ∧ s.settings.patrolStart ≤ s.settings.patrolEnd
    ∧ s.settings.patrolEnd < hostLines s ∧ (2 ≤ s.settings.heavyTotal ∧ s.settings.heavyTotal ≤ 8)
    ∧ (1 ≤ s.settings.softLimit ∧ s.settings.softLimit ≤ 255) ∧ s.settings.spareLowMark ≤ 1023
    ∧ (8 ≤ s.settings.pacePeriod ∧ s.settings.pacePeriod ≤ 255) ∧ s.settings.urgentMask.getLsbD 0 = false

/-- The Retirement Map holds exactly one entry for each IN_USE spare and no others, and no host line or spare appears in two
entries (R8). -/
abbrev MapLaw (s : State) : Prop :=
  (s.lineMap.entries.map MapEntry.hostLine).Nodup ∧ (s.lineMap.entries.map MapEntry.spare).Nodup
    ∧ ∀ i : Spare, spareState s i = .inUse ↔ i ∈ s.lineMap.entries.map MapEntry.spare

/-- A spare is RESERVED when the head job holds it, and only then: at most one is, and only while the head job is PLACING,
CHECKING or RECORDING (R12). The jobs behind it are QUEUED and hold none (R101). -/
abbrev ReservationLaw (s : State) : Prop :=
  (∀ i : Spare, spareState s i = .reserved ↔ s.queue.head?.bind Job.reserved = some i)
    ∧ (∀ j, s.queue.head? = some j → j.reserved ≠ none → j.state = .placing ∨ j.state = .checking ∨ j.state = .recording)
    ∧ ∀ j ∈ s.queue.tail, j.state = .queued ∧ j.reserved = none

/-- No two jobs are for one host line (R93), and the kind of each agrees with the map: RETIRE for a line with no entry, and
RERETIRE with the old spare of the line's entry (R9, R99). -/
abbrev JobKindLaw (s : State) : Prop :=
  (s.queue.map Job.hostLine).Nodup
    ∧ ∀ j ∈ s.queue, (mapEntry s j.hostLine).map MapEntry.spare = j.kind.oldSpare

/-- A pending DISCARD append is the head job's, which has given up its reservation and waits (R107). -/
abbrev DiscardLaw (s : State) : Prop :=
  ∀ spare, s.journal.pending = some (.discard spare) →
    ∃ j, s.queue.head? = some j ∧ j.reserved = none ∧ j.state ≠ .queued ∧ j.state ≠ .fetching

/-- The rebuild runs in REBUILD with no job queued, and up to its bitmap the map is empty and every spare is FREE (R16,
R144). -/
abbrev ReplayLaw (s : State) : Prop :=
  ∀ step, s.journal.work = .rebuild step →
    s.opState = .rebuild ∧ s.queue = []
      ∧ (step ≠ .record → s.lineMap.entries = [] ∧ ∀ i : Spare, spareState s i = .free)

/-- The law of the map (R8) and the law of reservations (R12), with what the jobs, the pending append and the rebuild must
keep for them. -/
abbrev PoolLaw (s : State) : Prop := MapLaw s ∧ ReservationLaw s ∧ JobKindLaw s ∧ DiscardLaw s ∧ ReplayLaw s

/-- What keeps the generation from falling (R125): a compaction writes the generation plus 1, which exists; the rebuild has
chosen no half before its header selection; and no half is active in UNFORMATTED, where INITIALIZE_JOURNAL alone
works. -/
abbrev GenerationLaw (s : State) : Prop :=
  ReplayLaw s
    ∧ (∀ c, s.journal.work = .compact c →
        c.generation = s.journal.generation + 1 ∧ s.journal.generation ≠ BitVec.allOnes 32)
    ∧ (∀ step, s.journal.work = .rebuild step → (step = .headerA ∨ ∃ a, step = .headerB a) → s.journal.generation = 0)
    ∧ (∀ n, s.journal.work = .formatting n → s.opState = .unformatted)
    ∧ (s.opState = .unformatted →
        s.queue = [] ∧ s.journal.generation = 0 ∧ (s.journal.work = .none ∨ ∃ n, s.journal.work = .formatting n))

/-! ### Terms of the statements -/

/-- A command frame can be taken into the command state: RESETN is high, no RESTART waits for the end of its selection, and no
command is PENDING (R187, R188, R190, R195). -/
abbrev PortFree (s : State) : Prop :=
  s.pins.resetLow = false ∧ restartTaken s = false ∧ ∀ code, s.port.command ≠ .pending code

/-- The state in which the port has received the frame of a command, before the command is judged (R187, R188). -/
def received (code : Byte) (operands : List Byte) (s : State) : State :=
  { s with
    port :=
      { s.port with
        selection := .frame { code := code, length := BitVec.ofNat 8 operands.length, operands := operands } }
    out := Outputs.none }

/-- The state in which a received frame has been ACCEPTED and has left the command state as given (R188, R189). -/
def accepted (command : CommandState) (s : State) : State :=
  { s with port := { s.port with command := command }, out := { s.out with admission := some .accepted } }

/-- The state in which a received frame has been ACCEPTED and its response is held (R189, R191). -/
def answered (code : Byte) (status : ServiceStatus) (results : List Byte) (s : State) : State :=
  accepted (.answered { status := status, code := code, results := results }) s

/-- A command is answered at its frame, with these results, and changes nothing outside the port. -/
abbrev AnswersOnly (c : Instr) (code : Byte) (operands : List Byte) (status : ServiceStatus) (results : List Byte)
    (s : State) : Prop :=
  exec c s = .next (answered code status results (received code operands s))

/-- The bytes of a response's results from `start` on, `width` of them. -/
def resultBytes (results : List Byte) (start width : Nat) : List Byte := (results.drop start).take width

/-- The results hold `bytes` from `start` on. -/
abbrev Holds (results : List Byte) (start : Nat) (bytes : List Byte) : Prop :=
  resultBytes results start bytes.length = bytes

/-- The range of a setting's value (12.5, R198, R199, R204): the value `v` is accepted for the setting of this index. -/
abbrev SettingRange (s : State) (index : Byte) (value : BitVec 32) : Prop :=
  let v := value.toNat
  match index.toNat with
  | 0 => v ≤ 65535
  | 1 => v < hostLines s ∧ v ≤ s.settings.patrolEnd
  | 2 => v < hostLines s ∧ s.settings.patrolStart ≤ v
  | 3 | 4 | 7 | 8 => v ≤ 1
  | 5 => 2 ≤ v ∧ v ≤ 8
  | 6 => 1 ≤ v ∧ v ≤ 255
  | 9 => v ≤ 1023
  | 10 => 8 ≤ v ∧ v ≤ 255
  | 11 => v ≤ 65535 ∧ v % 2 = 0
  | _ => False

/-- The frame of each service command but RESTART, from the table of 12.4. -/
def commandFrame : Instr → Option Frame
  | .getStatus => some ⟨1, 0, []⟩
  | .getCounters clear => some ⟨2, 1, [clear]⟩
  | .readSetting index => some ⟨3, 1, [index]⟩
  | .writeSetting index value => some ⟨4, 5, index :: be32 value⟩
  | .takeNotice => some ⟨5, 0, []⟩
  | .peekNotice => some ⟨6, 0, []⟩
  | .ackAlert => some ⟨7, 0, []⟩
  | .lookupLine hostLine => some ⟨8, 4, be32 hostLine⟩
  | .readSpare spare => some ⟨9, 2, be16 spare⟩
  | .readSuspect position => some ⟨10, 1, [position]⟩
  | .clearSuspect hostLine => some ⟨11, 4, be32 hostLine⟩
  | .retireLine hostLine => some ⟨12, 4, be32 hostLine⟩
  | .restartSweep => some ⟨13, 0, []⟩
  | .quiesce => some ⟨14, 0, []⟩
  | .resume => some ⟨15, 0, []⟩
  | .initializeJournal => some ⟨17, 0, []⟩
  | .readJournalSlot half slot => some ⟨18, 3, half :: be16 slot⟩
  | .unknownCommandFrame code length operands => some ⟨code, length, operands⟩
  | _ => none

end Sys2Proof.Safety
end

