-- ==== Sys2Proof/Certificates/Slice0/Obligations.lean ====
section
/-! DEFINITION. Sys2Proof/Certificates/Slice0/Obligations.lean: the statements of this row, each formalising what the manual
says a command, an event or a block does. Where a statement ends in `settle t`, the effect is `t`, after which grants are made
while a slot is FREE and a claim waits (R62); the statements on `settle` say what that adds. -/

open Sys2Proof Sys2Proof.Machine Sys2Proof.Safety

/-! ### Steps -/

/-- The model's own rule for its queue (assumption 22): a step takes the command at the front and is the command's effect on
the state with the queue's rest. -/
def Obligations.StepTakesFrontCommand : Prop :=
  ∀ (c : Instr) (rest : List Instr) (s : State), s.pending = c :: rest → step s = exec c { s with pending := rest }

/-- With no command waiting and RESETN high a step is the part's own clock (assumption 4, the model's choice): while no timer
is due (20 microseconds for an operation, 80 for a quarantine, patrol_interval units of 10 for the patrol, 1000 for a tick) one
microsecond passes; a due operation or quarantine timer of the lowest identifier is taken as its expiry; with none due at a
slot a due patrol interval is taken; with neither a due tick is taken, as the wrap where the pace counter reaches
pace_period. -/
def Obligations.IdleStepRunsTheClock : Prop :=
  ∀ s : State, s.pending = [] → s.pins.resetLow = false →
    let slotsRun :=
      (∀ (id : SlotId) r, s.media.slots[id.val] = .issued r → r.timer < 20) ∧
        ∀ (id : SlotId) t, s.media.slots[id.val] = .quarantined t → t < 80
    let patrolRuns := s.settings.patrolInterval ≠ 0 → s.patrol.timer < s.settings.patrolInterval * 10
    (slotsRun → patrolRuns →
      (s.notices.tick < 1000 →
        step s =
          .next
            { s with
              media := { s.media with slots := s.media.slots.map slotLater }
              patrol := { s.patrol with timer := if s.settings.patrolInterval = 0 then 0 else s.patrol.timer + 1 }
              notices := { s.notices with tick := s.notices.tick + 1 }
              out := Outputs.none }) ∧
      (1000 ≤ s.notices.tick → s.notices.pace + 1 < s.settings.pacePeriod → step s = exec .millisecondTick s) ∧
      (1000 ≤ s.notices.tick → s.settings.pacePeriod ≤ s.notices.pace + 1 → step s = exec .paceWrap s)) ∧
    (slotsRun → s.settings.patrolInterval ≠ 0 → s.settings.patrolInterval * 10 ≤ s.patrol.timer →
      step s = exec .patrolExpiry s) ∧
    ∀ id : SlotId, (∀ j : SlotId, j < id → dueAtSlot s j = none) →
      (∀ r, s.media.slots[id.val] = .issued r → 20 ≤ r.timer → step s = exec (.operationTimeout id) s) ∧
      ∀ t, s.media.slots[id.val] = .quarantined t → 80 ≤ t → step s = exec (.quarantineExpiry id) s

/-! ### The service port: reading commands -/

/-- GET_STATUS is answered DONE with 66 bytes that hold, in the order of R197 and in the widths of 12.4, every value of the
state at its frame, and changes nothing outside the port. -/
def Obligations.GetStatusReturnsEveryValue : Prop :=
  ∀ s : State, PortFree s → ∃ r : List Byte, AnswersOnly .getStatus 1 [] .done r s ∧ r.length = 66 ∧
    Holds r 0 (n8 (opStateCode s.opState)) ∧ Holds r 1 (n8 (haltCauseCode s.haltCause)) ∧
    Holds r 2 (n8 s.straps.toNat) ∧ Holds r 3 (n32 (mediaLinesOf s.straps)) ∧ Holds r 7 (n32 (hostLines s)) ∧
    Holds r 11 (n8 (journalStateCode s.journal.state)) ∧ Holds r 12 (n8 (halfCode s.journal.active)) ∧
    Holds r 13 (be32 s.journal.generation) ∧ Holds r 17 (n16 s.journal.tail) ∧ Holds r 19 (n16 (2045 - s.journal.tail)) ∧
    Holds r 21 (n16 ((List.range 1024).filter s.journal.bitmap.getLsbD).length) ∧
    (∀ k, s.journal.uncertain = some k → Holds r 23 (n16 k)) ∧
    (s.journal.uncertain = none → Holds r 23 [255, 255]) ∧
    Holds r 25 (n16 s.lineMap.entries.length) ∧ Holds r 27 (n16 (spareCount .free s)) ∧
    Holds r 29 (n16 (spareCount .reserved s)) ∧ Holds r 31 (n16 (spareCount .inUse s)) ∧
    Holds r 33 (n16 (spareCount .discarded s)) ∧ Holds r 35 (n8 s.suspects.length) ∧ Holds r 36 (n8 s.queue.length) ∧
    Holds r 37 (n8 s.notices.queue.length) ∧ Holds r 38 (be16 s.notices.sequence) ∧
    Holds r 40 (be32 s.notices.partTime) ∧ Holds r 44 (n8 s.notices.pace) ∧ Holds r 45 (n8 (flagCode s.notices.alert)) ∧
    Holds r 46 (n8 (flagCode s.notices.armed)) ∧ Holds r 47 (be32 s.patrol.sweep) ∧ Holds r 51 (n32 s.patrol.cursor) ∧
    Holds r 55 (n32 s.patrol.liveStart) ∧ Holds r 59 (n32 s.patrol.liveEnd) ∧ Holds r 63 (n8 (modeCode s.patrol.liveMode)) ∧
    Holds r 64 (n8 (flagCode s.patrol.parity)) ∧ Holds r 65 (n8 (flagCode s.patrol.step.isSome))

/-- GET_COUNTERS returns the seventeen counters in index order, four bytes each; with the clear flag 1 it also sets all of them
to 0 at the same event; another flag is answered BAD_ARGUMENT. -/
def Obligations.GetCountersReturnsAndClears : Prop :=
  ∀ (clear : Byte) (s : State), PortFree s → ∃ r : List Byte, r.length = 68 ∧
    (∀ (k : Nat) (v : BitVec 32), s.counters.inOrder[k]? = some v → Holds r (4 * k) (be32 v)) ∧
    (clear = 0 → AnswersOnly (.getCounters clear) 2 [clear] .done r s) ∧
    (clear = 1 →
      exec (.getCounters clear) s =
        .next (answered 2 .done r { received 2 [clear] s with counters := Counters.zero })) ∧
    (clear ≠ 0 → clear ≠ 1 → AnswersOnly (.getCounters clear) 2 [clear] .badArgument [] s)

/-- READ_SETTING returns the index and the value in force of the setting with that index; an index above 11 is answered
BAD_ARGUMENT. -/
def Obligations.ReadSettingReturnsTheValueInForce : Prop :=
  ∀ (index : Byte) (s : State), PortFree s →
    (∀ v : Nat,
      [s.settings.patrolInterval, s.settings.patrolStart, s.settings.patrolEnd, modeCode s.settings.patrolMode,
        flagCode s.settings.autoRetire, s.settings.heavyTotal, s.settings.softLimit, flagCode s.settings.verifyWrites,
        flagCode s.settings.trackSoft, s.settings.spareLowMark, s.settings.pacePeriod,
        s.settings.urgentMask.toNat][index.toNat]? = some v →
      AnswersOnly (.readSetting index) 3 [index] .done (index :: n32 v) s) ∧
    (11 < index.toNat → AnswersOnly (.readSetting index) 3 [index] .badArgument [] s)

/-- TAKE_NOTICE and PEEK_NOTICE: EMPTY with the queue empty; otherwise TAKE removes the oldest notice and returns it after the
count that remains, and PEEK returns it after the count in the queue and leaves the queue as it is. Neither changes ALERT, the
armed flag, the pace counter or anything else. -/
def Obligations.TakeAndPeekNotice : Prop :=
  ∀ s : State, PortFree s →
    (s.notices.queue = [] →
      AnswersOnly .takeNotice 5 [] .empty [] s ∧ AnswersOnly .peekNotice 6 [] .empty [] s) ∧
    ∀ n rest, s.notices.queue = n :: rest →
      exec .takeNotice s =
          .next
            (answered 5 .done (n8 rest.length ++ noticeBytes n)
              { received 5 [] s with notices := { s.notices with queue := rest } }) ∧
        AnswersOnly .peekNotice 6 [] .done (n8 (rest.length + 1) ++ noticeBytes n) s

/-- The 41 bytes of a notice in the results: its fields at the places of 12.4, an absent field and the values beyond the kind's
count all ones. -/
def Obligations.NoticeBytesHoldEveryField : Prop :=
  ∀ n : Notice,
    (noticeBytes n).length = 41 ∧ Holds (noticeBytes n) 0 (n8 (noticeCode n.kind)) ∧
    Holds (noticeBytes n) 1 (be16 n.sequence) ∧ Holds (noticeBytes n) 3 (be32 n.partTime) ∧
    Holds (noticeBytes n) 7
      (n8 (flagCode n.hostLine.isSome + 2 * flagCode n.spare.isSome + 4 * flagCode n.oldSpare.isSome)) ∧
    Holds (noticeBytes n) 8 ((n.hostLine.map n32).getD (absent 4)) ∧
    Holds (noticeBytes n) 12 ((n.spare.map fun x => n16 x.val).getD (absent 2)) ∧
    Holds (noticeBytes n) 14 ((n.oldSpare.map fun x => n16 x.val).getD (absent 2)) ∧
    Holds (noticeBytes n) 16 (n8 n.values.length) ∧
    ∀ k < 6, Holds (noticeBytes n) (17 + 4 * k) ((n.values[k]?.map be32).getD (absent 4))

/-- LOOKUP_LINE returns 33 bytes: the mapping, the suspect entry with its position and the job's fields of the line, each at
its place in 12.4 and all ones where the line is not mapped, not listed or not locked; a host line of HostLines or more is
answered BAD_ARGUMENT. -/
def Obligations.LookupLineReturnsTheLine : Prop :=
  ∀ (line : BitVec 32) (s : State), PortFree s →
    (hostLines s ≤ line.toNat → AnswersOnly (.lookupLine line) 8 (be32 line) .badArgument [] s) ∧
    (line.toNat < hostLines s → ∃ r : List Byte, AnswersOnly (.lookupLine line) 8 (be32 line) .done r s ∧ r.length = 33 ∧
      (mapEntry s line.toNat = none → Holds r 0 (n8 0 ++ n32 (5120 + line.toNat) ++ List.replicate 7 255)) ∧
      (∀ e, mapEntry s line.toNat = some e →
        Holds r 0 (n8 1 ++ n32 (4096 + e.spare.val) ++ n16 e.spare.val ++ n8 (originCode e.origin) ++ be32 e.generation)) ∧
      (suspectOf s line.toNat = none → Holds r 12 (n8 0 ++ List.replicate 8 255)) ∧
      (∀ e, suspectOf s line.toNat = some e → ∃ k, s.suspects[k]? = some e ∧
        Holds r 12
          (n8 1 ++ n8 (reasonCode e.reason) ++ n8 e.hits ++ be32 e.sweep ++ n8 (originCode e.origin) ++ n8 k)) ∧
      (jobOf s line.toNat = none → Holds r 21 (n8 0 ++ List.replicate 11 255)) ∧
      ∀ j, jobOf s line.toNat = some j → ∃ k, s.queue[k]? = some j ∧
        Holds r 21 (n8 1 ++ n8 k ++ n8 (jobStateCode j.state) ++ n8 (jobKindCode j.kind)) ∧
        Holds r 25 ((j.kind.oldSpare.map fun x => n16 x.val).getD (absent 2)) ∧
        Holds r 27 (n8 (sourceCode j.source) ++ n8 (originCode j.origin) ++ n8 j.attempts) ∧
        Holds r 30 ((j.reserved.map fun x => n16 x.val).getD (absent 2)) ∧
        Holds r 32 (n8 (flagCode j.originator.isSome)))

/-- READ_SPARE returns the state of the spare, its media line ML 4096 + spare index, and the host line of the entry that names
an IN_USE spare or of the head job that holds a RESERVED one; 1024 or more is answered BAD_ARGUMENT. READ_SUSPECT returns the
entry at the position, 0 being the oldest; EMPTY at or beyond the count and below 64, BAD_ARGUMENT at 64 or more. CLEAR_SUSPECT
removes the entry of its host line, if any, and is answered DONE with the was-listed flag; a host line of HostLines or more is
answered BAD_ARGUMENT. (The two bytes of the media line and the four of an absent host line are assumption 9, DEDUCED.) -/
def Obligations.SpareAndSuspectCommands : Prop :=
  ((∀ (operand : BitVec 16) (s : State), PortFree s →
      (1024 ≤ operand.toNat → AnswersOnly (.readSpare operand) 9 (be16 operand) .badArgument [] s) ∧
      ∀ i : Spare, operand.toNat = i.val → ∃ last : List Byte,
        AnswersOnly (.readSpare operand) 9 (be16 operand) .done
          (n8 (spareStateCode (spareState s i)) ++ n16 (4096 + i.val) ++ last) s ∧
        (∀ e ∈ s.lineMap.entries, spareState s i = .inUse → e.spare = i →
          (s.lineMap.entries.map MapEntry.spare).Nodup → last = n32 e.hostLine) ∧
        (∀ j rest, spareState s i = .reserved → s.queue = j :: rest → last = n32 j.hostLine) ∧
        (spareState s i = .free ∨ spareState s i = .discarded → last = absent 4)) ∧
   ∀ (position : Byte) (s : State), PortFree s →
     (64 ≤ position.toNat → AnswersOnly (.readSuspect position) 10 [position] .badArgument [] s) ∧
     (position.toNat < 64 →
       (s.suspects.length ≤ position.toNat → AnswersOnly (.readSuspect position) 10 [position] .empty [] s) ∧
       ∀ e, s.suspects[position.toNat]? = some e →
         AnswersOnly (.readSuspect position) 10 [position] .done
           (n32 e.hostLine ++ n8 (reasonCode e.reason) ++ n8 e.hits ++ be32 e.sweep ++ n8 (originCode e.origin)) s)) ∧
  ∀ (line : BitVec 32) (s : State), PortFree s →
    (hostLines s ≤ line.toNat → AnswersOnly (.clearSuspect line) 11 (be32 line) .badArgument [] s) ∧
    (line.toNat < hostLines s →
      exec (.clearSuspect line) s =
        .next
          (answered 11 .done [if s.suspects.any fun e => e.hostLine == line.toNat then 1 else 0]
            { received 11 (be32 line) s with suspects := s.suspects.filter fun e => e.hostLine != line.toNat }))

/-! ### The service port: acting commands -/

/-- WRITE_SETTING: a value in the range of 12.5 replaces the setting of its index, and no other, and the response carries index
and value; patrol_interval also restarts the interval timer, and a pace_period at or below the pace counter sets the counter to
0; a value out of range, or an index above 11, is answered BAD_ARGUMENT and changes nothing. -/
def Obligations.WriteSettingReplacesTheValue : Prop :=
  ∀ (index : Byte) (value : BitVec 32) (s : State), PortFree s →
    let v := value.toNat
    let r := received 4 (index :: be32 value) s
    let takes (t : State) : Prop := exec (.writeSetting index value) s = .next (answered 4 .done (index :: be32 value) t)
    (¬ SettingRange s index value → AnswersOnly (.writeSetting index value) 4 (index :: be32 value) .badArgument [] s) ∧
    (SettingRange s index value →
      (index = 0 →
        takes
          { r with settings := { s.settings with patrolInterval := v }, patrol := { s.patrol with timer := 0 } }) ∧
      (index = 1 → takes { r with settings := { s.settings with patrolStart := v } }) ∧
      (index = 2 → takes { r with settings := { s.settings with patrolEnd := v } }) ∧
      (index = 3 → takes { r with settings := { s.settings with patrolMode := if v = 0 then .linear else .split } }) ∧
      (index = 4 → takes { r with settings := { s.settings with autoRetire := decide (v = 1) } }) ∧
      (index = 5 → takes { r with settings := { s.settings with heavyTotal := v } }) ∧
      (index = 6 → takes { r with settings := { s.settings with softLimit := v } }) ∧
      (index = 7 → takes { r with settings := { s.settings with verifyWrites := decide (v = 1) } }) ∧
      (index = 8 → takes { r with settings := { s.settings with trackSoft := decide (v = 1) } }) ∧
      (index = 9 → takes { r with settings := { s.settings with spareLowMark := v } }) ∧
      (index = 10 →
        takes
          { r with
            settings := { s.settings with pacePeriod := v }
            notices := { s.notices with pace := if v ≤ s.notices.pace then 0 else s.notices.pace } }) ∧
      (index = 11 → takes { r with settings := { s.settings with urgentMask := value.setWidth 16 } }))

/-- ACK_ALERT is answered DONE with the state of ALERT and the armed flag after it: no effect on a RELEASED line; an ASSERTED
line is released, and with the armed flag set the flag is cleared and, where a notice waits, the line is asserted again and a
pace counter at or above the half-period is lowered by it. -/
def Obligations.AckAlertReleasesAndReasserts : Prop :=
  ∀ s : State, PortFree s →
    let r := received 7 [] s
    let half := s.settings.pacePeriod / 2
    (s.notices.alert = false → AnswersOnly .ackAlert 7 [] .done [0, BitVec.ofNat 8 (flagCode s.notices.armed)] s) ∧
    (s.notices.alert = true →
      (s.notices.armed = false →
        exec .ackAlert s = .next (answered 7 .done [0, 0] { r with notices := { s.notices with alert := false } })) ∧
      (s.notices.armed = true → s.notices.queue = [] →
        exec .ackAlert s =
          .next (answered 7 .done [0, 0] { r with notices := { s.notices with alert := false, armed := false } })) ∧
      (s.notices.armed = true → s.notices.queue ≠ [] →
        exec .ackAlert s =
          .next
            (answered 7 .done [1, 0]
              { r with
                notices :=
                  { s.notices with
                    armed := false
                    pace := if half ≤ s.notices.pace then s.notices.pace - half else s.notices.pace } })))

/-- RETIRE_LINE. Rows 1 to 4 of its table, BAD_ARGUMENT, WRONG_STATE, DONE with the new-job flag clear and BUSY, change nothing
outside the port. Row 5: a FETCH job with origin COMMAND, attempts 0 and no originating request joins at the tail, RERETIRE
with the old spare for a mapped line and RETIRE otherwise; the lock takes the READY entry of the line to HELD. Joining an empty
queue with nothing to wait for (an EXECUTING entry, a residual operation or an issued patrol writeback of the line) it is the
head job and passes to FETCHING at once, and it stays QUEUED otherwise. A patrol step sees the lock, as PatrolStepRuns says. -/
def Obligations.RetireLineRows : Prop :=
  (∀ (line : BitVec 32) (s : State), PortFree s →
     let answers := AnswersOnly (.retireLine line) 12 (be32 line)
     (hostLines s ≤ line.toNat → answers .badArgument [] s) ∧
     (line.toNat < hostLines s →
       (s.opState ≠ .ready ∨ s.journal.state = .failed → answers .wrongState [] s) ∧
       (s.opState = .ready → s.journal.state ≠ .failed →
         ((∃ j ∈ s.queue, j.hostLine = line.toNat) → answers .done [0] s) ∧
         ((∀ j ∈ s.queue, j.hostLine ≠ line.toNat) → 8 ≤ s.queue.length → answers .busy [] s)))) ∧
  ∀ (line : BitVec 32) (s : State), PortFree s → line.toNat < hostLines s → s.opState = .ready →
    s.journal.state ≠ .failed → (∀ j ∈ s.queue, j.hostLine ≠ line.toNat) → s.queue.length < 8 →
    let waits := (∃ e ∈ s.channel.table, e.hostLine = line.toNat ∧ ∃ ctx, e.state = .executing ctx) ∨
      (∃ x ∈ s.channel.residuals, x.hostLine = line.toNat) ∨
      ∃ st d, s.patrol.step = some st ∧ st.state = .writingBack d true ∧ st.hostLine = line.toNat
    let job (st : JobState) : Job :=
      { hostLine := line.toNat
        kind := match mapEntry s line.toNat with | some e => .reretire e.spare | none => .retire
        origin := .command, source := .fetch, buffer := none, attempts := 0, reserved := none, originator := none
        state := st }
    let enqueued (st : JobState) : State :=
      patrolSeesLock line.toNat
        { received 12 (be32 line) s with
          queue := s.queue ++ [job st]
          channel :=
            { s.channel with
              table :=
                s.channel.table.map fun e =>
                  if e.hostLine = line.toNat ∧ e.state = .ready then { e with state := .held } else e } }
    (s.queue = [] → ¬ waits → exec (.retireLine line) s = .next (answered 12 .done [1] (settle (enqueued .fetching)))) ∧
    (s.queue ≠ [] ∨ waits → exec (.retireLine line) s = .next (answered 12 .done [1] (settle (enqueued .queued))))

/-- RESTART_SWEEP ends the current sweep by its five parts in order: the sweep number rises, SWEEP_DONE carries it with the
tallies, which are set to 0, the sweep-end trigger runs, the staged region and mode are adopted with the parity, and the cursor
takes its first value; answered DONE in READY, QUIESCING and QUIET and WRONG_STATE elsewhere. -/
def Obligations.RestartSweepEndsTheSweep : Prop :=
  ∀ s : State, PortFree s →
    (s.opState = .rebuild ∨ s.opState = .unformatted ∨ s.opState = .halted →
      AnswersOnly .restartSweep 13 [] .wrongState [] s) ∧
    (s.opState = .ready ∨ s.opState = .quiescing ∨ s.opState = .quiet →
      let p := s.patrol
      let told :=
        raise .sweepDone none none none
          [p.sweep + 1, p.tallies.lines, p.tallies.soft, p.tallies.heavy, p.tallies.lost, p.tallies.skipped]
          { received 13 [] s with patrol := { p with sweep := p.sweep + 1 } }
      let asked :=
        if s.settings.pacePeriod / 2 ≤ s.notices.pace ∧ told.notices.queue ≠ [] then alertRequest told else told
      let parity :=
        decide (p.liveMode = .split) && decide (s.settings.patrolMode = .split) && !p.parity
      exec .restartSweep s =
        .next
          (answered 13 .done []
            { asked with
              notices := { asked.notices with pace := 0 }
              patrol :=
                { p with
                  sweep := p.sweep + 1
                  tallies := { lines := 0, soft := 0, heavy := 0, lost := 0, skipped := 0 }
                  liveStart := s.settings.patrolStart
                  liveEnd := s.settings.patrolEnd
                  liveMode := s.settings.patrolMode
                  parity := parity
                  cursor := s.settings.patrolStart + if parity then 1 else 0 } }))

/-- QUIESCE outside READY, and RESUME: QUIESCE is answered DONE and changes nothing in QUIESCING and QUIET; RESUME takes the
state to READY and is answered DONE in READY, QUIESCING and QUIET, and changes nothing else; both are answered WRONG_STATE in
REBUILD, UNFORMATTED and HALTED. The level of PWARN alone changes at its deassertion, and at its assertion outside READY or
while it is asserted already. That the level alone changes while RESETN is low, in READY too, is the model's reading
(assumption 6, DEDUCED). -/
def Obligations.QuiesceResumeAndPwarnLevel : Prop :=
  (∀ s : State, PortFree s →
     (s.opState = .quiescing ∨ s.opState = .quiet → AnswersOnly .quiesce 14 [] .done [] s) ∧
     (s.opState = .ready ∨ s.opState = .quiescing ∨ s.opState = .quiet →
       exec .resume s = .next (answered 15 .done [] { received 15 [] s with opState := .ready })) ∧
     (s.opState = .rebuild ∨ s.opState = .unformatted ∨ s.opState = .halted →
       AnswersOnly .quiesce 14 [] .wrongState [] s ∧ AnswersOnly .resume 15 [] .wrongState [] s)) ∧
  ∀ s : State,
    exec .pwarnDeasserted s = .next { s with pins := { s.pins with pwarn := false }, out := Outputs.none } ∧
    (s.opState ≠ .ready ∨ s.pins.pwarn = true ∨ s.pins.resetLow = true →
      exec .pwarnAsserted s = .next { s with pins := { s.pins with pwarn := true }, out := Outputs.none })

/-- The entry to QUIESCING from READY, by QUIESCE or by the assertion of PWARN: the drain check at the same event takes the
state to QUIET when the queue is empty and the journal IDLE or FAILED, with QUIET_REACHED raised, and leaves it QUIESCING
otherwise; jobs, journal, map, pool, Suspect List and settings stay as they are. Before the check the patrol withdraws a
waiting writeback, as PatrolStepRuns says (in this order: assumption 13, DEDUCED). -/
def Obligations.EntryToQuiescing : Prop :=
  ∀ s : State, s.opState = .ready → s.pins.resetLow = false →
    let drained := s.queue = [] ∧ (s.journal.state = .idle ∨ s.journal.state = .failed)
    let entered (t : State) : Prop :=
      t.opState = (if drained then .quiet else .quiescing) ∧ t.queue = s.queue ∧ t.journal = s.journal ∧
      t.lineMap = s.lineMap ∧ t.suspects = s.suspects ∧ t.settings = s.settings
    let quiesced (t : State) : State :=
      let seen := patrolSeesQuiesce { t with opState := .quiescing }
      settle (if drained then raise .quietReached none none none [] { seen with opState := .quiet } else seen)
    (PortFree s →
      let t := answered 14 .done [] (quiesced (received 14 [] s))
      exec .quiesce s = .next t ∧ entered t) ∧
    (s.pins.pwarn = false →
      let t := quiesced { s with pins := { s.pins with pwarn := true }, out := Outputs.none }
      exec .pwarnAsserted s = .next t ∧ entered t ∧ t.pins.pwarn = true ∧ t.port = s.port)

/-! ### Resets -/

/-- Power-up reset: every block at its power-up value, the straps sampled, the settings at the defaults of 12.5, and the
rebuild begun with the MEDIA_READ of half A's header, ML 0, in slot 0. With straps 0, PWARN deasserted and no command waiting
this is the model's State.reset (assumption 3, the model's choice of the straps and of PWARN). -/
def Obligations.PowerUpResetValues : Prop :=
  (∀ (straps : BitVec 2) (s : State),
    exec (.powerUpReset straps) s =
      .next
        { channel := { table := [], arrival := 0, residuals := [] }
          lineMap := { entries := [], spares := Vector.replicate 1024 .free }
          media :=
            { slots :=
                (Vector.replicate 8 Slot.free).set 0 (.issued { op := .read, line := 0, owner := .journal, timer := 0 })
              passedOver := 0 }
          suspects := []
          queue := []
          journal :=
            { state := .replay, active := none, generation := 0, tail := 0, bitmap := 0, pending := none,
              uncertain := none, work := .rebuild .headerA, service := none, presented := some .work }
          opState := .rebuild
          haltCause := .none
          patrol :=
            { liveStart := 0, liveEnd := 4194304 * 2 ^ straps.toNat - 5120 - 1, liveMode := .linear, cursor := 0,
              parity := false, sweep := 0, tallies := ⟨0, 0, 0, 0, 0⟩, timer := 0, step := none }
          notices :=
            { queue := [], sequence := 0, partTime := 0, pace := 0, tick := 0, alert := false, armed := false }
          port := { command := .none, selection := .none }
          settings :=
            { patrolInterval := 100, patrolStart := 0, patrolEnd := 4194304 * 2 ^ straps.toNat - 5120 - 1,
              patrolMode := .linear, autoRetire := true, heavyTotal := 3, softLimit := 8, verifyWrites := true,
              trackSoft := true, spareLowMark := 64, pacePeriod := 64,
              urgentMask := BitVec.twoPow 16 5 ||| BitVec.twoPow 16 4 ||| BitVec.twoPow 16 15 ||| BitVec.twoPow 16 9 }
          counters := ⟨0, 0, 0, 0, 0, 0, 0, 0, 0, 0, 0, 0, 0, 0, 0, 0, 0⟩
          straps := straps
          pins := { s.pins with resetLow := false }
          out := { completions := [], mediaOps := [.read 0 0], admission := none, pollResponse := none }
          pending := s.pending }) ∧
  ∀ s : State, s.pins.pwarn = false → s.pending = [] → exec (.powerUpReset 0) s = .next State.reset

/-- The laws of the part hold right after reset. -/
def Obligations.LawsHoldAtReset : Prop :=
  NoticeLaw State.reset ∧ SuspectLaw State.reset ∧ QueueLaw State.reset ∧ TableLaw State.reset ∧
    PassedOverLaw State.reset ∧ SettingsLaw State.reset ∧ PoolLaw State.reset ∧ GenerationLaw State.reset

/-- RESETN low releases ALERT with its armed request and ends the selection in progress, and until its release no host request,
response, timer or frame has an effect. The armed request, the selection and the timers are the model's reading (assumption 6,
DEDUCED). -/
def Obligations.ResetnLowStopsThePart : Prop :=
  (∀ s : State,
    exec .resetnAsserted s =
      .next
        { s with
          pins := { s.pins with resetLow := true }
          notices := { s.notices with alert := false, armed := false }
          port := { s.port with selection := .none }
          out := Outputs.none }) ∧
  ∀ (c : Instr) (s : State), s.pins.resetLow = true → c.wf = true → (∀ straps, c ≠ .powerUpReset straps) →
    c ≠ .resetnAsserted → c ≠ .pwarnAsserted → c ≠ .pwarnDeasserted → exec c s = .next { s with out := Outputs.none }

/-- A RESTART frame is ACCEPTED in every command state: a held response is discarded, a pending command goes on, and nothing
outside the port changes until its effect. The effect comes at the end of its selection: every block at its RESTART value, the
settings, the straps and the quarantines kept, each ISSUED slot QUARANTINED, the staged region live, and the rebuild begun with
the read of half A's header, which is granted when a slot is FREE. -/
def Obligations.RestartFrameAndEffect : Prop :=
  (∀ s : State, s.pins.resetLow = false → restartTaken s = false →
     let taken (command : CommandState) : State :=
       { s with
         port := { command := command, selection := .frame { code := 16, length := 0, operands := [] } }
         out := { Outputs.none with admission := some .accepted } }
     (∀ r, s.port.command = .answered r → exec .restart s = .next (taken .none)) ∧
     (s.port.command = .none → exec .restart s = .next (taken .none)) ∧
     (∀ code, s.port.command = .pending code → exec .restart s = .next (taken (.pending code)))) ∧
  ∀ (s : State) (operands : List Byte), s.pins.resetLow = false →
    s.port.selection = .frame { code := 16, length := 0, operands := operands } →
    exec .restartEffect s =
      .next
        (settle
          { s with
            channel := { table := [], arrival := 0, residuals := [] }
            lineMap := { entries := [], spares := Vector.replicate 1024 .free }
            media :=
              { slots := s.media.slots.map fun slot => match slot with | .issued _ => .quarantined 0 | x => x
                passedOver := 0 }
            suspects := []
            queue := []
            journal :=
              { state := .replay, active := none, generation := 0, tail := 0, bitmap := 0, pending := none,
                uncertain := none, work := .rebuild .headerA, service := none, presented := some .work }
            opState := .rebuild
            haltCause := .none
            patrol :=
              { liveStart := s.settings.patrolStart, liveEnd := s.settings.patrolEnd, liveMode := s.settings.patrolMode,
                cursor := s.settings.patrolStart, parity := false, sweep := 0, tallies := ⟨0, 0, 0, 0, 0⟩, timer := 0,
                step := none }
            notices :=
              { queue := [], sequence := 0, partTime := 0, pace := 0, tick := 0, alert := false, armed := false }
            port := { command := .none, selection := .none }
            counters := ⟨0, 0, 0, 0, 0, 0, 0, 0, 0, 0, 0, 0, 0, 0, 0, 0, 0⟩
            out := Outputs.none })

/-! ### The service port: pending commands, frames and responses -/

/-- INITIALIZE_JOURNAL in UNFORMATTED goes PENDING and presents its first write; it is answered WRONG_STATE in any other state.
READ_JOURNAL_SLOT of half 0 or 1 and a slot below 2045 goes PENDING in every state and presents its read when no claim of the
journal is presented; another half code or slot is answered BAD_ARGUMENT. That no operand names a header or a bitmap line, as
R137 has it and R150 does not, is the model's choice (assumption 32). -/
def Obligations.PendingCommandsBegin : Prop :=
  (∀ s : State, PortFree s →
     (s.opState ≠ .unformatted → AnswersOnly .initializeJournal 17 [] .wrongState [] s) ∧
     (s.opState = .unformatted → s.journal.presented = none → s.journal.service = none →
       exec .initializeJournal s =
         .next
           (accepted (.pending 17)
             (settle
               { received 17 [] s with
                 journal := { s.journal with work := .formatting 0, presented := some .work } })))) ∧
  ∀ (half : Byte) (slot : BitVec 16) (s : State), PortFree s →
    (1 < half.toNat ∨ 2045 ≤ slot.toNat →
      AnswersOnly (.readJournalSlot half slot) 18 (half :: be16 slot) .badArgument [] s) ∧
    ∀ h : Half, half = (match h with | .a => 0 | .b => 1) → slot.toNat < 2045 →
      (s.journal.presented = none →
        exec (.readJournalSlot half slot) s =
          .next
            (accepted (.pending 18)
              (settle
                { received 18 (half :: be16 slot) s with
                  journal := { s.journal with service := some (h, slot.toNat), presented := some .service } }))) ∧
      (s.journal.presented ≠ none →
        exec (.readJournalSlot half slot) s =
          .next
            (accepted (.pending 18)
              (settle
                { received 18 (half :: be16 slot) s with
                  journal := { s.journal with service := some (h, slot.toNat) } })))

/-- The writes of INITIALIZE_JOURNAL, 4094 of them in order: blank header and slots of half B, blank slots of half A, half A's
clear bitmap lines, half A's header with generation 1; each is presented at the DONE of the one before. The last DONE makes the
journal IDLE with half A active and generation 1, answers the command with outcome READY, raises REBUILD_DONE and takes the
state to READY with PWARN deasserted, and with it asserted to QUIESCING and by the drain check to QUIET after QUIET_REACHED
where no job is queued; a write that fails ends in HALTED with outcome HALTED. The byte of the outcome in the response, 1 READY
and 3 HALTED, is the model's choice (assumption 26). -/
def Obligations.InitializeJournalWrites : Prop :=
  (∀ s : State,
    initializeRequest s 0 = .write 2048 zeroLine ∧
    (∀ k < 2045, initializeRequest s (1 + k) = .write (2051 + k) zeroLine) ∧
    (∀ k < 2045, initializeRequest s (2046 + k) = .write (3 + k) zeroLine) ∧
    initializeRequest s 4091 = .write 1 zeroLine ∧ initializeRequest s 4092 = .write 2 zeroLine ∧
    initializeRequest s 4093 = .write 0 (headerLine 1 s.straps)) ∧
  ∀ (s : State) (n : Nat), s.journal.work = .formatting n → s.journal.presented = some .work →
    s.journal.service = none → s.port.command = .pending 17 →
    workRequest s = some (initializeRequest s n) ∧
    (n + 1 < 4094 →
      journalResult .done s =
        { s with journal := { s.journal with work := .formatting (n + 1), presented := some .work } }) ∧
    (n = 4093 →
      let done :=
        raise .rebuildDone none none none
          [1, val s.lineMap.entries.length, val (spareCount .discarded s), 1]
          { s with
            journal :=
              { s.journal with
                state := .idle, active := some .a, generation := 1, tail := 0, bitmap := 0, uncertain := none,
                work := .none, presented := none }
            port :=
              { s.port with command := .answered { status := .done, code := 17, results := [1] } } }
      (s.pins.pwarn = false → journalResult .done s = { done with opState := .ready }) ∧
      (s.pins.pwarn = true → s.queue = [] →
        journalResult .done s = raise .quietReached none none none [] { done with opState := .quiet }) ∧
      (s.pins.pwarn = true → s.queue ≠ [] → journalResult .done s = { done with opState := .quiescing })) ∧
    ∀ r : MediaResult, r = .exhausted ∨ r = .timeout →
      journalResult r s =
        raise .rebuildDone none none none
          [3, val s.lineMap.entries.length, val (spareCount .discarded s), s.journal.generation]
          { s with
            opState := .halted
            haltCause := .initializeFailed
            journal := { s.journal with work := .none, presented := none }
            port := { s.port with command := .answered { status := .done, code := 17, results := [3] } } }

/-- The single claim of the journal, and READ_JOURNAL_SLOT. With no operation presented a held service read is presented,
before the next operation of the journal's own work, and with none held that operation. A service read that is held while one
of them is in flight or waits is presented when it ends, and the work that has become due when the service read ends. The
service read names the line of its half and slot, and its decode answers the command DONE with the fields of the record,
whether the check value matches, the class and the four counts; it changes nothing else. A TIMEOUT answers with class code 4
and every field all ones (assumption 8, the model's choice of that layout). -/
def Obligations.ServiceReadAnswers : Prop :=
  (∀ s : State,
    let presents (p : Presented) : State := { s with journal := { s.journal with presented := some p } }
    (s.journal.presented = none → journalRequest s = none) ∧
    (s.journal.presented = some .work → journalRequest s = workRequest s) ∧
    (s.journal.presented ≠ none → presentNext s = s) ∧
    (s.journal.presented = none →
      (s.journal.service ≠ none → presentNext s = presents .service) ∧
      (s.journal.service = none →
        (workRequest s ≠ none → presentNext s = presents .work) ∧ (workRequest s = none → presentNext s = s)))) ∧
  ∀ (s : State) (h : Half) (k : Nat), s.journal.service = some (h, k) →
    let slotRead : Option MediaRequest := some (.read ((match h with | .a => 3 | .b => 2051) + k))
    (s.journal.presented = some .work → ∀ r : MediaResult,
      let worked := journalResult r s
      worked.journal.service = some (h, k) ∧ worked.journal.presented = some .service ∧
        journalRequest worked = slotRead) ∧
    (s.journal.presented = some .service → s.port.command = .pending 18 →
      let ended (results : List Byte) : State :=
        { s with
          journal := { s.journal with service := none, presented := if workRequest s = none then none else some .work }
          port := { s.port with command := .answered { status := .done, code := 18, results := results } } }
      journalRequest s = slotRead ∧ (∀ results, journalRequest (ended results) = workRequest s) ∧
      (∀ (o : DecodeOutcome) (d : LineData),
        journalResult (.read o d) s =
          ended
            ([byteAt d 0] ++ be32 (read32 d 1) ++ be32 (read32 d 5) ++ be16 (read16 d 9) ++ be16 (read16 d 11)
              ++ be16 (read16 d 13) ++ [if read16 d 13 = checkValue (d.toList.take 13) then 1 else 0]
              ++ n8 (classCode o.cls) ++ o.counts.toList.map fun c => BitVec.ofNat 8 (countCode c))) ∧
      journalResult .timeout s = ended (List.replicate 16 255 ++ [4] ++ List.replicate 4 255))

/-- A frame with no command of its own: BAD_LENGTH for an operand length above 16 or one that the command does not take, and
BAD_COMMAND for a code that names no command; it changes nothing outside the port. A term that spells no such frame is refused
(assumption 21, the model's own check of its operands). While a command is PENDING every frame but a well-formed RESTART is
refused BUSY, and changes neither the command state nor anything outside the port. -/
def Obligations.FramesAreJudged : Prop :=
  (∀ (code length : Byte) (operands : List Byte) (s : State),
     let judged (status : ServiceStatus) : Prop :=
       exec (.unknownCommandFrame code length operands) s =
         .next
           { s with
             port :=
               { command := .answered { status := status, code := code, results := [] }
                 selection := .frame { code := code, length := length, operands := operands } }
             out := { Outputs.none with admission := some .accepted } }
     (PortFree s → code ≠ 0 →
       (16 < length.toNat → operands = [] → judged .badLength) ∧
       (length.toNat ≤ 16 → operands.length = length.toNat →
         (18 < code.toNat → judged .badCommand) ∧
         ∀ n, commandLength code = some n → n ≠ length.toNat → judged .badLength)) ∧
     ((Instr.unknownCommandFrame code length operands).wf = false →
       exec (.unknownCommandFrame code length operands) s = .refused .illFormed)) ∧
  ∀ (c : Instr) (f : Frame) (code : Byte) (s : State), commandFrame c = some f → c.wf = true →
    s.pins.resetLow = false → restartTaken s = false → s.port.command = .pending code →
    exec c s =
      .next
        { s with
          port := { s.port with selection := .frame f }
          out := { Outputs.none with admission := some .busy } }

/-- POLL shifts out NONE, PENDING with the pending command's code, or the held response, and changes nothing but the selection;
the rise of SCS after its last byte releases a held response, and one that returned NONE or PENDING changes nothing. -/
def Obligations.PollReturnsAndReleases : Prop :=
  (∀ s : State, s.pins.resetLow = false → restartTaken s = false →
    let polled (r : Response) (held : Bool) : State :=
      { s with
        port := { s.port with selection := .poll r held }
        out := { Outputs.none with pollResponse := some r } }
    (s.port.command = .none →
      exec .poll s = .next (polled { status := .none, code := 0, results := [] } false)) ∧
    (∀ code, s.port.command = .pending code →
      exec .poll s = .next (polled { status := .pending, code := code, results := [] } false)) ∧
    ∀ r, s.port.command = .answered r → exec .poll s = .next (polled r true)) ∧
  ∀ (s : State) (r : Response), s.pins.resetLow = false →
    (s.port.selection = .poll r true →
      exec .responseRelease s =
        .next { s with port := { command := .none, selection := .none }, out := Outputs.none }) ∧
    (s.port.selection = .poll r false →
      exec .responseRelease s =
        .next { s with port := { s.port with selection := .none }, out := Outputs.none })

/-! ### The host channel -/

/-- A request that is not admitted: with its tag in use it is discarded, protocol_errors rises and PROTOCOL is raised with the
tag and cause TAG_IN_USE; in REBUILD, UNFORMATTED and HALTED it is completed NOT_READY at once; in a serving state a host line
of HostLines or more, or a kind code that names no kind, is completed OUT_OF_RANGE at once. None takes a table entry or an
arrival number or raises a host counter. -/
def Obligations.HostRequestNotAdmitted : Prop :=
  ∀ (kind tagByte : Byte) (line : BitVec 32) (data : LineData) (mask : BitVec 64) (tag : Tag) (s : State),
    s.pins.resetLow = false → tagByte.toNat % 32 = tag.val →
    let request : Instr := .hostRequest kind tagByte line data mask
    let refused (status : Status) : State :=
      { s with out := { Outputs.none with completions := [{ tag := tag, status := status, data := none }] } }
    ((∃ e ∈ s.channel.table, e.tag = tag) →
      exec request s =
        .next
          (raise .protocol none none none [BitVec.ofNat 32 tag.val, 1]
            { s with
              counters := { s.counters with protocolErrors := satInc s.counters.protocolErrors }
              out := Outputs.none })) ∧
    ((∀ e ∈ s.channel.table, e.tag ≠ tag) →
      (s.opState = .rebuild ∨ s.opState = .unformatted ∨ s.opState = .halted →
        exec request s = .next (refused .notReady)) ∧
      (s.opState = .ready ∨ s.opState = .quiescing ∨ s.opState = .quiet →
        hostLines s ≤ line.toNat ∨ (kind ≠ 1 ∧ kind ≠ 2 ∧ kind ≠ 3) →
        exec request s = .next (refused .outOfRange)))

/-- An admission: the entry joins the table with the request's contents and the current arrival number, which rises by 1 and
wraps; the counter of its kind rises; its first state is WAITING behind an entry or a residual operation of its line, HELD on a
locked line, and READY otherwise, a masked write with every flag clear passing at once to COMPLETING with OK. -/
def Obligations.HostRequestAdmitted : Prop :=
  ∀ (kind tagByte : Byte) (line : BitVec 32) (data : LineData) (mask : BitVec 64) (tag : Tag) (s : State),
    s.pins.resetLow = false → tagByte.toNat % 32 = tag.val → (∀ e ∈ s.channel.table, e.tag ≠ tag) →
    (s.opState = .ready ∨ s.opState = .quiescing ∨ s.opState = .quiet) → line.toNat < hostLines s →
    let c := s.counters
    let behind := (∃ e ∈ s.channel.table, e.hostLine = line.toNat) ∨ ∃ x ∈ s.channel.residuals, x.hostLine = line.toNat
    let locked := ∃ j ∈ s.queue, j.hostLine = line.toNat
    let admitted (r : Request) (counters : Counters) (first : EntryState) : Prop :=
      exec (.hostRequest kind tagByte line data mask) s =
        .next
          (settle
            { s with
              channel :=
                { s.channel with
                  table :=
                    s.channel.table
                      ++ [{ tag := tag, request := r, hostLine := line.toNat, arrival := s.channel.arrival, state := first }]
                  arrival := s.channel.arrival + 1 }
              counters := counters
              out := Outputs.none })
    let admittedAs (r : Request) (counters : Counters) (free : EntryState) : Prop :=
      (behind → admitted r counters .waiting) ∧ (¬ behind → locked → admitted r counters .held) ∧
      (¬ behind → ¬ locked → admitted r counters free)
    (kind = 1 → admittedAs .read { c with hostReads := satInc c.hostReads } .ready) ∧
    (kind = 2 → admittedAs (.write data) { c with hostWrites := satInc c.hostWrites } .ready) ∧
    (kind = 3 → mask ≠ 0 →
      admittedAs (.maskedWrite data mask) { c with hostMaskedWrites := satInc c.hostMaskedWrites } .ready) ∧
    (kind = 3 → mask = 0 →
      admittedAs (.maskedWrite data mask) { c with hostMaskedWrites := satInc c.hostMaskedWrites } (.completing .ok none none))

/-- The channel takes a completion: it goes out with the entry's status and data, the entry leaves the table and its tag is
free; the next oldest entry of its line, if WAITING with no residual operation on the line, passes to HELD when the line is
locked and becomes READY otherwise, and nothing else of the table changes. -/
def Obligations.CompletionTaken : Prop :=
  ∀ (tag : Tag) (e : Entry) (status : Status) (data : Option LineData) (ctx : Option Context) (s : State),
    s.pins.resetLow = false → TableLaw s → e ∈ s.channel.table → e.tag = tag → e.state = .completing status data ctx →
    let rest := s.channel.table.filter fun x => x.tag != tag
    let sent (table : List Entry) : State :=
      { s with
        channel := { s.channel with table := table }
        out := { Outputs.none with completions := [{ tag := tag, status := status, data := data }] } }
    ((∀ x ∈ rest, x.hostLine ≠ e.hostLine) ∨ (∃ x ∈ s.channel.residuals, x.hostLine = e.hostLine) →
      exec (.completion tag) s = .next (settle (sent rest))) ∧
    ∀ older y younger, rest = older ++ y :: younger → (∀ x ∈ older, x.hostLine ≠ e.hostLine) → y.hostLine = e.hostLine →
      (∀ x ∈ s.channel.residuals, x.hostLine ≠ e.hostLine) →
      let passes (st : EntryState) : Prop :=
        exec (.completion tag) s = .next (settle (sent (older ++ { y with state := st } :: younger)))
      y.state = .waiting ∧
      ((∃ j ∈ s.queue, j.hostLine = e.hostLine) → passes .held) ∧
      ((∀ j ∈ s.queue, j.hostLine ≠ e.hostLine) →
        (∀ d, y.request = .maskedWrite d 0 → passes (.completing .ok none none)) ∧
        ((∀ d, y.request ≠ .maskedWrite d 0) → passes .ready))

/-- LINK_RESET: the table empties without completions, the arrival number returns to 0, each operation in flight of an
EXECUTING entry becomes a residual operation of its slot, line, kind and returned flag, and every originating request is
emptied; queue, map, pool, Suspect List, notices and counters stay; the head job is re-examined where an EXECUTING entry of its
line leaves, with the notices and counters of that examination (assumption 31, the model's choice between R49 and R116). Stated
for slots whose HOST owners differ. A residual operation ends with its outcome, by kind and class: its listings and DATA_LOST,
the entry removed at a CLEAN verify, a job with the decoded data and no originating request; the record is then removed, and
the line's oldest entry and the head job are re-examined. The origin of a merge read's listings, and the order of the parts,
are the model's reading (assumptions 14 and 13, DEDUCED). The oldest entry of a line, if WAITING with no residual operation on
the line, passes to HELD on a locked line and becomes READY otherwise. -/
def Obligations.LinkResetAndResidualOperations : Prop :=
  (∀ s : State, s.pins.resetLow = false →
    (∀ (i j : SlotId) r r' (tag : Tag), s.media.slots[i.val] = .issued r → s.media.slots[j.val] = .issued r' →
      r.owner = .host tag → r'.owner = .host tag → i = j) →
    ∃ residuals : List Residual,
      let emptied : State :=
        { s with
          channel := { table := [], arrival := 0, residuals := s.channel.residuals ++ residuals }
          media :=
            { s.media with
              slots :=
                s.media.slots.map fun slot =>
                  match slot with
                  | .issued { op := op, line := line, owner := .host _, timer := timer } =>
                    .issued { op := op, line := line, owner := .residual, timer := timer }
                  | x => x }
          queue := s.queue.map fun j => { j with originator := none }
          out := Outputs.none }
      let headLineExecutes :=
        ∃ j rest, s.queue = j :: rest ∧ ∃ e ∈ s.channel.table, e.hostLine = j.hostLine ∧ ∃ ctx, e.state = .executing ctx
      (¬ headLineExecutes → exec .linkReset s = .next (settle emptied)) ∧
      (headLineExecutes → exec .linkReset s = .next (settle (runHead emptied))) ∧
      ∀ x, x ∈ residuals ↔
        ∃ e ∈ s.channel.table, ∃ ctx r, e.state = .executing ctx ∧ s.media.slots[x.slot.val] = .issued r ∧
          r.owner = .host e.tag ∧ x.hostLine = e.hostLine ∧ x.returned = ctx.returned ∧
          x.op =
            (match ctx.phase with | .read => .read | .mergeRead => .mergeRead | .write => .write | .verify => .verify)) ∧
  (∀ (x : Residual) (r : MediaResult) (s : State),
    x ∈ s.channel.residuals → (s.channel.residuals.map Residual.slot).Nodup →
    let line := x.hostLine
    let origin : Origin := match x.op with | .read => .hostRead | _ => .hostWrite
    let lostOrigin : BitVec 32 := match x.op with | .read => 1 | .mergeRead => 7 | _ => 8
    let ends (told : State) : Prop :=
      deliver .residual x.slot r s =
        examineLine line
          (reexamine line
            { told with
              channel :=
                { told.channel with residuals := told.channel.residuals.filter fun y => y.slot != x.slot } })
    (r = .done ∨ r = .timeout → ends s) ∧
    (r = .exhausted → ends (listSuspect line .lost .hostWrite s)) ∧
    ∀ (o : DecodeOutcome) (d : LineData), r = .read o d →
      (o.cls = .clean →
        (x.op = .verify → ends { s with suspects := s.suspects.filter fun y => y.hostLine != line }) ∧
        (x.op ≠ .verify → ends s)) ∧
      (o.cls = .soft → ends (softAction line origin s)) ∧
      (o.cls = .heavy →
        (x.op = .verify → x.returned = true → ends (listSuspect line .deferred .hostWrite s)) ∧
        (x.op ≠ .verify ∨ x.returned = false → ends (heavyWithData line origin d none s).2)) ∧
      (o.cls = .lost → ends (listSuspect line .lost origin (raise .dataLost (some line) none none [lostOrigin] s)))) ∧
  ∀ (line : Nat) (s : State),
    ((∀ e ∈ s.channel.table, e.hostLine ≠ line) ∨ (∃ x ∈ s.channel.residuals, x.hostLine = line) →
      reexamine line s = s) ∧
    ∀ older e younger, s.channel.table = older ++ e :: younger → (∀ y ∈ older, y.hostLine ≠ line) → e.hostLine = line →
      (s.channel.table.map Entry.tag).Nodup →
      let takes (st : EntryState) : Prop :=
        reexamine line s =
          { s with channel := { s.channel with table := older ++ { e with state := st } :: younger } }
      (e.state ≠ .waiting → reexamine line s = s) ∧
      (e.state = .waiting → (∀ x ∈ s.channel.residuals, x.hostLine ≠ line) →
        ((∃ j ∈ s.queue, j.hostLine = line) → takes .held) ∧
        ((∀ j ∈ s.queue, j.hostLine ≠ line) →
          (∀ d, e.request = .maskedWrite d 0 → takes (.completing .ok none none)) ∧
          ((∀ d, e.request ≠ .maskedWrite d 0) → takes .ready)))

/-! ### The media channel and the slots -/

/-- A READ_DATA for an ISSUED MEDIA_READ is accepted: the slot becomes FREE, the decode raises the counter of its class, and
data and outcome go to the owner; any other READ_DATA is discarded and changes nothing. -/
def Obligations.ReadDataArrives : Prop :=
  ∀ (id : SlotId) (w : Codeword) (s : State), s.pins.resetLow = false →
    let o := decodeOutcome s.settings.heavyTotal w
    let c := s.counters
    (∀ line owner timer,
      s.media.slots[id.val] = .issued { op := .read, line := line, owner := owner, timer := timer } →
      exec (.readData id w) s =
        .next
          (settle
            (deliver owner id (.read o (decodeData w))
              { s with
                media := { s.media with slots := s.media.slots.set id.val .free }
                counters :=
                  { c with
                    decodeSoft := if o.cls = .soft then satInc c.decodeSoft else c.decodeSoft
                    decodeHeavy := if o.cls = .heavy then satInc c.decodeHeavy else c.decodeHeavy
                    decodeLost := if o.cls = .lost then satInc c.decodeLost else c.decodeLost }
                out := Outputs.none }))) ∧
    ((∀ r, s.media.slots[id.val] = .issued r → ∃ codeword tries, r.op = .write codeword tries) →
      exec (.readData id w) s = .next { s with out := Outputs.none })

/-- A WRITE_STATUS for an ISSUED MEDIA_WRITE: DONE frees the slot and the owner is told DONE; PROGRAM_FAIL on try 1 or 2 issues
the kept codeword again under the same identifier to the same media line, the try raised and the timer at 0, and tells the
owner nothing; PROGRAM_FAIL on try 3 frees the slot and the owner is told EXHAUSTED. Any other WRITE_STATUS is discarded and
the slot is left as it was. -/
def Obligations.WriteStatusDecides : Prop :=
  ∀ (id : SlotId) (s : State), s.pins.resetLow = false →
    let freed : State :=
      { s with media := { s.media with slots := s.media.slots.set id.val .free }, out := Outputs.none }
    (∀ line owner timer codeword tries,
      s.media.slots[id.val] = .issued { op := .write codeword tries, line := line, owner := owner, timer := timer } →
      exec (.writeStatus id .done) s = .next (settle (deliver owner id .done freed)) ∧
      (tries = 1 ∨ tries = 2 →
        exec (.writeStatus id .programFail) s =
          .next
            { s with
              media :=
                { s.media with
                  slots :=
                    s.media.slots.set id.val
                      (.issued { op := .write codeword (tries + 1), line := line, owner := owner, timer := 0 }) }
              out := { Outputs.none with mediaOps := [.write id line codeword] } }) ∧
      (tries = 3 → exec (.writeStatus id .programFail) s = .next (settle (deliver owner id .exhausted freed)))) ∧
    ((∀ r, s.media.slots[id.val] = .issued r → r.op = .read) →
      ∀ status, exec (.writeStatus id status) s = .next { s with out := Outputs.none })

/-- The timers of a slot. At 20 microseconds an ISSUED slot becomes QUARANTINED with its quarantine timer at 0, media_timeouts
rises, MEDIA_TIMEOUT is raised with the media line and the operation (1 MEDIA_READ, 2 MEDIA_WRITE) whatever the owner, and the
owner is told TIMEOUT; at 80 microseconds a QUARANTINED slot becomes FREE. -/
def Obligations.SlotTimersExpire : Prop :=
  ∀ (id : SlotId) (s : State), s.pins.resetLow = false →
    (∀ op line owner timer,
      s.media.slots[id.val] = .issued { op := op, line := line, owner := owner, timer := timer } →
      exec (.operationTimeout id) s =
        .next
          (settle
            (deliver owner id .timeout
              (raise .mediaTimeout none none none
                [BitVec.ofNat 32 line, match op with | .read => 1 | .write _ _ => 2]
                { s with
                  media := { s.media with slots := s.media.slots.set id.val (.quarantined 0) }
                  counters := { s.counters with mediaTimeouts := satInc s.counters.mediaTimeouts }
                  out := Outputs.none })))) ∧
    ∀ timer, s.media.slots[id.val] = .quarantined timer →
      exec (.quarantineExpiry id) s =
        .next (settle { s with media := { s.media with slots := s.media.slots.set id.val .free }, out := Outputs.none })

/-! ### The patrol and the notice timers -/

/-- An expiry of the patrol interval restarts the timer and, in READY, is acted on by the first row that applies: with a step
in flight patrol_missed rises; with the cursor beyond live end the sweep ends with no read; a locked cursor line is skipped and
counted, and the cursor advances; otherwise a step begins at the cursor. Outside READY it has no further effect. -/
def Obligations.PatrolExpiryRows : Prop :=
  ∀ s : State, s.pins.resetLow = false → s.settings.patrolInterval ≠ 0 →
    let c := s.counters
    let p := s.patrol
    let r : State := { s with patrol := { p with timer := 0 }, out := Outputs.none }
    let locked := ∃ j ∈ s.queue, j.hostLine = p.cursor
    let moved := p.cursor + (match p.liveMode with | .linear => 1 | .split => 2)
    let skipped : State :=
      { r with
        patrol := { p with timer := 0, cursor := moved, tallies := { p.tallies with skipped := satInc p.tallies.skipped } }
        counters := { c with patrolSteps := satInc c.patrolSteps, patrolSkipped := satInc c.patrolSkipped } }
    (s.opState ≠ .ready → exec .patrolExpiry s = .next r) ∧
    (s.opState = .ready →
      (p.step ≠ none →
        exec .patrolExpiry s =
          .next (settle { r with counters := { c with patrolMissed := satInc c.patrolMissed } })) ∧
      (p.step = none →
        (p.liveEnd < p.cursor → exec .patrolExpiry s = .next (settle (sweepEnd r))) ∧
        (p.cursor ≤ p.liveEnd →
          (locked → moved ≤ p.liveEnd → exec .patrolExpiry s = .next (settle skipped)) ∧
          (locked → p.liveEnd < moved → exec .patrolExpiry s = .next (settle (sweepEnd skipped))) ∧
          (¬ locked →
            exec .patrolExpiry s =
              .next
                (settle
                  { r with
                    patrol :=
                      { p with
                        timer := 0
                        step :=
                          some
                            { hostLine := p.cursor, sweep := p.sweep, state := .waiting, mediaLine := none,
                              mark := false } }
                    counters := { c with patrolSteps := satInc c.patrolSteps } })))))

/-- A millisecond tick raises part time and the pace counter by 1; where the pace counter reaches pace_period it returns to 0
at the same tick, and with a notice in the queue an alert request is made, which asserts a RELEASED line and arms an ASSERTED
one. PACE_WRAP is the tick at which it wraps (assumption 5, the model's choice). -/
def Obligations.TicksAndPaceWrap : Prop :=
  ∀ s : State, s.pins.resetLow = false →
    let n := s.notices
    let ticked (pace : Nat) (alert armed : Bool) : State :=
      { s with
        notices := { n with partTime := n.partTime + 1, pace := pace, tick := 0, alert := alert, armed := armed }
        out := Outputs.none }
    (n.pace + 1 < s.settings.pacePeriod → exec .millisecondTick s = .next (ticked (n.pace + 1) n.alert n.armed)) ∧
    (s.settings.pacePeriod ≤ n.pace + 1 →
      let wraps (alert armed : Bool) : Prop :=
        exec .millisecondTick s = .next (ticked 0 alert armed) ∧ exec .paceWrap s = .next (ticked 0 alert armed)
      (n.queue = [] → wraps n.alert n.armed) ∧
      (n.queue ≠ [] → n.alert = false → wraps true n.armed) ∧
      (n.queue ≠ [] → n.alert = true → wraps true true))

/-! ### Host execution -/

/-- The end of a host READ's MEDIA_READ, by class: CLEAN, SOFT and HEAVY complete OK with the corrected data, LOST completes
POISONED with the poisoned data after DATA_LOST and a LOST listing, TIMEOUT completes MEDIA_FAULT with no data and no listing.
Before its completion SOFT is taken by the SOFT action and HEAVY by a BUFFER request with the corrected data, or a listing with
auto_retire off, whatever becomes of the request. The entry keeps its context, and a head job of its line is re-examined. -/
def Obligations.HostReadEnds : Prop :=
  ∀ (e : Entry) (ctx : Context) (id : SlotId) (o : DecodeOutcome) (d : LineData) (s : State),
    TableLaw s → e ∈ s.channel.table → e.state = .executing ctx → ctx.phase = .read →
    let line := e.hostLine
    let completes (status : Status) (data : Option LineData) (t : State) : State :=
      examineLine line
        { t with
          channel :=
            { t.channel with
              table :=
                t.channel.table.map fun x =>
                  if x.tag = e.tag then { x with state := .completing status data (some ctx) } else x } }
    let ended := deliver (.host e.tag) id (.read o d) s
    let refusing := s.opState ≠ .ready ∨ s.journal.state = .failed
    deliver (.host e.tag) id .timeout s = completes .mediaFault none s ∧
    (o.cls = .clean → ended = completes .ok (some d) s) ∧
    (o.cls = .soft →
      ended = completes .ok (some d) (softAction line .hostRead s) ∧
      ((∀ x ∈ s.suspects, x.hostLine ≠ line) → s.settings.trackSoft = false → ended = completes .ok (some d) s) ∧
      ((∃ x ∈ s.suspects, x.hostLine = line) ∨ s.settings.trackSoft = true →
        let listed := listSuspect line .soft .hostRead s
        (∀ x ∈ listed.suspects, x.hostLine = line → x.hits < s.settings.softLimit) ∨ s.settings.autoRetire = false →
        ended = completes .ok (some d) listed)) ∧
    (o.cls = .heavy →
      ended = completes .ok (some d) (heavyWithData line .hostRead d none s).2 ∧
      (s.settings.autoRetire = false → ended = completes .ok (some d) (listSuspect line .heavy .hostRead s)) ∧
      (s.settings.autoRetire = true → refusing →
        ended = completes .ok (some d) (listSuspect line .deferred .hostRead s)) ∧
      (s.settings.autoRetire = true → ¬ refusing → s.queue ≠ [] → s.queue.length < 8 →
        (∀ j ∈ s.queue, j.hostLine ≠ line) →
        ended.queue =
            s.queue
              ++ [{ hostLine := line
                    kind := match mapEntry s line with | some m => .reretire m.spare | none => .retire
                    origin := .hostRead, source := .buffer, buffer := some d, attempts := 0, reserved := none
                    originator := none, state := .queued }] ∧
          ∀ x ∈ ended.channel.table, x.tag = e.tag → x.state = .completing .ok (some d) (some ctx))) ∧
    (o.cls = .lost →
      ended =
        completes .poisoned (some d)
          (listSuspect line .lost .hostRead (raise .dataLost (some line) none none [1] s)))

/-- The ends of the write phase, of its verify and of a merge read. A DONE write awaits its verify when one is owed and
completes OK otherwise; a TIMEOUT of any completes MEDIA_FAULT. Verify: CLEAN removes the line's suspect entry and completes
OK; SOFT completes OK after the SOFT action; HEAVY of a returned write lists the line DEFERRED and completes OK, and of any
other asks for a job with the data written: a job that takes them has the entry RETIRING, otherwise it completes OK. A LOST
verify or an EXHAUSTED write asks for a job when auto_retire is on and the entry has not returned, whose data and originating
request it then is; with no request, or the request REFUSED, the line is listed LOST after DATA_LOST with origin VERIFY and the
entry completes MEDIA_FAULT. Merge read: CLEAN, SOFT and HEAVY make the merged line the line data, SOFT with the SOFT action,
HEAVY with a request for a job with the merged line; unless a job takes it the entry goes on to its write. LOST lists the line
LOST after DATA_LOST with origin MASKED_WRITE and completes POISONED. -/
def Obligations.HostWriteEnds : Prop :=
  ∀ (e : Entry) (ctx : Context) (id : SlotId) (o : DecodeOutcome) (d data : LineData) (s : State),
    TableLaw s → e ∈ s.channel.table → e.state = .executing ctx → ctx.lineData = some data →
    let line := e.hostLine
    let passes (st : EntryState) (t : State) : State :=
      { t with
        channel :=
          { t.channel with table := t.channel.table.map fun x => if x.tag = e.tag then { x with state := st } else x } }
    let completes (status : Status) (t : State) : State :=
      examineLine line (passes (.completing status none (some ctx)) t)
    let retires (c : Context) (t : State) : State := examineLine line (passes (.retiring { c with returned := false }) t)
    let told (r : MediaResult) : State := deliver (.host e.tag) id r s
    let listedLost (t : State) : State :=
      listSuspect line .lost .hostWrite (raise .dataLost (some line) none none [8] t)
    let lost (t : State) : Prop :=
      (s.settings.autoRetire = false ∨ ctx.returned = true → t = completes .mediaFault (listedLost s)) ∧
      (s.settings.autoRetire = true → ctx.returned = false → ∀ answer u,
        bufferRequest line .hostWrite data (some e.tag) s = (answer, u) →
        (answer = .refused → t = completes .mediaFault (listedLost u)) ∧
        (answer = .enqueued ∨ answer = .adopted →
          ((∃ x ∈ u.suspects, x.hostLine = line) → t = retires ctx (listSuspect line .heavy .hostWrite u)) ∧
          ((∀ x ∈ u.suspects, x.hostLine ≠ line) → t = retires ctx u))) ∧
      (s.settings.autoRetire = true → ctx.returned = false → s.opState = .ready → s.journal.state ≠ .failed →
        s.queue ≠ [] → s.queue.length < 8 → (∀ j ∈ s.queue, j.hostLine ≠ line) →
        t.queue =
            s.queue
              ++ [{ hostLine := line
                    kind := match mapEntry s line with | some m => .reretire m.spare | none => .retire
                    origin := .hostWrite, source := .buffer, buffer := some data, attempts := 0, reserved := none
                    originator := some e.tag, state := .queued }] ∧
          ∀ x ∈ t.channel.table, x.tag = e.tag → x.state = .retiring { ctx with returned := false })
    told .timeout = completes .mediaFault s ∧
    (ctx.phase = .write →
      (ctx.verifyOwed = true → told .done = passes (.executing { ctx with phase := .verify }) s) ∧
      (ctx.verifyOwed = false → told .done = completes .ok s) ∧ lost (told .exhausted)) ∧
    (ctx.phase = .verify →
      (o.cls = .clean →
        told (.read o d) = completes .ok { s with suspects := s.suspects.filter fun x => x.hostLine != line }) ∧
      (o.cls = .soft → told (.read o d) = completes .ok (softAction line .hostWrite s)) ∧
      (o.cls = .heavy →
        (ctx.returned = true → told (.read o d) = completes .ok (listSuspect line .deferred .hostWrite s)) ∧
        (ctx.returned = false → ∀ t,
          (heavyWithData line .hostWrite data (some e.tag) s = (true, t) → told (.read o d) = retires ctx t) ∧
          (heavyWithData line .hostWrite data (some e.tag) s = (false, t) → told (.read o d) = completes .ok t))) ∧
      (o.cls = .lost → lost (told (.read o d)))) ∧
    ∀ bytes mask, e.request = .maskedWrite bytes mask → ctx.phase = .mergeRead →
      (o.cls = .lost →
        told (.read o d) =
          completes .poisoned (listSuspect line .lost .hostWrite (raise .dataLost (some line) none none [7] s))) ∧
      (o.cls ≠ .lost → ∃ merged : LineData,
        (∀ i < 64, byteAt merged i = if mask.getLsbD i then byteAt bytes i else byteAt d i) ∧
        let next : Context := { ctx with lineData := some merged }
        let going := passes (.executing next) s
        (o.cls = .clean → told (.read o d) = going) ∧
        (o.cls = .soft → told (.read o d) = softAction line .hostWrite going) ∧
        (o.cls = .heavy → ∀ t,
          (heavyWithData line .hostWrite merged (some e.tag) going = (true, t) → told (.read o d) = retires next t) ∧
          (heavyWithData line .hostWrite merged (some e.tag) going = (false, t) → told (.read o d) = t)))

/-- What a host claim's grant does. It raises the passed-over count by 1 while a patrol claim waits. A READ reads its
translation. A WRITE, or a masked write with every flag set, passes to EXECUTING, which a patrol step of its line sees as
PatrolStepRuns says, and writes its encoded data to its translation with verify owed when the line is listed and verify_writes
is on; or, with the line listed LOST and auto_retire on, asks for a job with its data first: ENQUEUED or ADOPTED, it passes to
RETIRING and leaves the slot as it was, REFUSED, it writes. A masked write with both kinds of flag reads first, and the patrol
sees it too. A returned entry takes its translation afresh and owes a verify; a verify read reads the line just written. That a
context has the phase WRITE where its write is not issued, and verify owed no before its write phase, is the model's choice
(assumptions 28 and 29). -/
def Obligations.HostGrantsIssue : Prop :=
  ∀ (id : SlotId) (e : Entry) (s counted : State),
    let patrolWaits := ∃ st, s.patrol.step = some st ∧ (st.state = .waiting ∨ ∃ d, st.state = .writingBack d false)
    (patrolWaits → counted = { s with media := { s.media with passedOver := s.media.passedOver + 1 } }) →
    (¬ patrolWaits → counted = s) →
    let line := Machine.translate s e.hostLine
    let granted := grant id (.host e) s
    let listed := ∃ x ∈ s.suspects, x.hostLine = e.hostLine
    let listedLost := (suspectOf s e.hostLine).map Suspect.reason = some .lost
    let passes (st : EntryState) (t : State) : State :=
      { t with
        channel :=
          { t.channel with table := t.channel.table.map fun x => if x.tag = e.tag then { x with state := st } else x } }
    let reads (at_ : Nat) (t : State) : State :=
      { t with
        media :=
          { t.media with
            slots := t.media.slots.set id.val (.issued { op := .read, line := at_, owner := .host e.tag, timer := 0 }) }
        out := { t.out with mediaOps := t.out.mediaOps ++ [.read id at_] } }
    let writes (data : LineData) (ctx : Context) (t : State) : State :=
      let u := passes (.executing ctx) t
      { u with
        media :=
          { u.media with
            slots :=
              u.media.slots.set id.val
                (.issued { op := .write (encode data) 1, line := ctx.mediaLine, owner := .host e.tag, timer := 0 }) }
        out := { u.out with mediaOps := u.out.mediaOps ++ [.write id ctx.mediaLine (encode data)] } }
    let begins (ctx : Context) : State := patrolSeesWrite e.hostLine (passes (.executing ctx) counted)
    let owed := decide listed && s.settings.verifyWrites
    (e.state = .ready →
      (e.request = .read → granted = reads line (passes (.executing ⟨line, .read, false, false, none⟩) counted)) ∧
      (∀ data, e.request = .write data ∨ e.request = .maskedWrite data (BitVec.allOnes 64) →
        let ctx : Context := ⟨line, .write, false, false, some data⟩
        (¬ listedLost ∨ s.settings.autoRetire = false →
          granted = writes data { ctx with verifyOwed := owed } (begins ctx)) ∧
        (listedLost → s.settings.autoRetire = true →
          (∀ answer t, bufferRequest e.hostLine .hostWrite data (some e.tag) (begins ctx) = (answer, t) →
            (answer = .refused → granted = writes data { ctx with verifyOwed := owed } t) ∧
            (answer = .enqueued ∨ answer = .adopted →
              granted = examineLine e.hostLine (passes (.retiring ctx) t) ∧
                granted.media.slots = s.media.slots ∧ granted.out = s.out)) ∧
          (s.opState = .ready → s.journal.state ≠ .failed → s.queue ≠ [] → s.queue.length < 8 →
            (∀ j ∈ s.queue, j.hostLine ≠ e.hostLine) →
            (∃ j, granted.queue = s.queue ++ [j] ∧ j.hostLine = e.hostLine ∧ j.buffer = some data ∧
              j.origin = .hostWrite ∧ j.originator = some e.tag) ∧
            ∀ x ∈ granted.channel.table, x.tag = e.tag → x.state = .retiring ctx))) ∧
      (∀ data mask, e.request = .maskedWrite data mask → mask ≠ BitVec.allOnes 64 →
        granted = reads line (begins ⟨line, .mergeRead, false, false, some data⟩))) ∧
    ∀ ctx, e.state = .executing ctx →
      (ctx.phase = .verify → granted = reads ctx.mediaLine counted) ∧
      (∀ data, ctx.lineData = some data → ctx.phase ≠ .verify →
        (ctx.returned = false →
          granted = writes data { ctx with phase := .write, verifyOwed := owed } counted) ∧
        (ctx.returned = true →
          granted = writes data { ctx with phase := .write, verifyOwed := true, mediaLine := line } counted))

/-- The order of grants: the journal's claim, the Retirement Engine's, the patrol claim when the passed-over count is 16, the
oldest host claim that no issued patrol writeback passes over, the patrol claim. Each goes to the FREE slot of lowest
identifier; with no slot FREE or no claim waiting no grant is made; with both, the winner's claim is granted in that slot first
and the grants go on from the state it leaves. A grant to the journal or to the Retirement Engine issues the operation its
claim asks for in the slot, with its owner, its media line, timer 0, and for a write the encoded data with try 1. -/
def Obligations.GrantsFollowTheOrder : Prop :=
  ∀ s : State,
    (∀ r, journalClaim s = some r → winner s = some (.journal r)) ∧
    (journalClaim s = none → ∀ r, retirementClaim s = some r → winner s = some (.retirement r)) ∧
    (journalClaim s = none → retirementClaim s = none →
      let claims (e : Entry) : Bool :=
        (match e.state with
          | .ready => true
          | .executing _ => !inFlight s (.host e.tag)
          | _ => false)
        && !(e.request.writes && writebackIssued s e.hostLine)
      (patrolClaims s = true → 16 ≤ s.media.passedOver → winner s = some .patrol) ∧
      (patrolClaims s = false ∨ s.media.passedOver < 16 →
        (∀ older e younger, s.channel.table = older ++ e :: younger → claims e = true →
          (∀ x ∈ older, claims x = false) → winner s = some (.host e)) ∧
        ((∀ e ∈ s.channel.table, claims e = false) →
          winner s = if patrolClaims s then some .patrol else none))) ∧
    (∀ id, lowestFreeSlot s = some id → s.media.slots[id.val] = .free ∧ ∀ j : SlotId, j < id → s.media.slots[j.val] ≠ .free) ∧
    ((∀ id : SlotId, s.media.slots[id.val] ≠ .free) → settle s = s) ∧
    (winner s = none → settle s = s) ∧
    (∀ id w, lowestFreeSlot s = some id → winner s = some w →
      settle s = grantLoop 47 (grant id w s) ∧ ∀ n, grantLoop (n + 1) s = grantLoop n (grant id w s)) ∧
    ∀ (id : SlotId) (r : MediaRequest),
      let issued (owner : Owner) : State :=
        match r with
        | .read line =>
          { s with
            media :=
              { s.media with
                slots := s.media.slots.set id.val (.issued { op := .read, line := line, owner := owner, timer := 0 }) }
            out := { s.out with mediaOps := s.out.mediaOps ++ [.read id line] } }
        | .write line data =>
          { s with
            media :=
              { s.media with
                slots :=
                  s.media.slots.set id.val
                    (.issued { op := .write (encode data) 1, line := line, owner := owner, timer := 0 }) }
            out := { s.out with mediaOps := s.out.mediaOps ++ [.write id line (encode data)] } }
      grant id (.journal r) s = issued .journal ∧ grant id (.retirement r) s = issued .retirement

/-- The grants of an event run out: with at most 32 entries in the table, no slot is FREE or no claim waits when they end. The
bound of 48 on their number, a device of the model's definition (assumption 20), is never met. -/
def Obligations.GrantsRunOut : Prop :=
  ∀ s : State, s.channel.table.length ≤ 32 →
    (∀ id : SlotId, (settle s).media.slots[id.val] ≠ .free) ∨ winner (settle s) = none

/-! ### The patrol -/

/-- A patrol step from its read's grant to its end. A lock on its line withdraws a waiting read; a lock, or a host write that
passes to EXECUTING on its line, sets the mark of a step whose read or writeback is issued and withdraws a waiting writeback,
as does the entry to QUIESCING. A withdrawn claim sets the passed-over count to 0 and ends the step skipped and counted. The
grant reads the translation and sets the mark when a host write of the line is EXECUTING or in flight as residual. A decode of
the current sweep is tallied; CLEAN ends the step; HEAVY ends it after the patrol's HEAVY action, LOST after DATA_LOST and a
LOST listing, both with origin PATROL; SOFT is taken by the SOFT action and then written back, unless a mark, a host write, a
lock or the operating state suppresses it, and a suppressed one is counted skipped. A TIMEOUT ends the step. The writeback's
grant writes the corrected data, encoded anew, to the line that was read; DONE and TIMEOUT end the step, EXHAUSTED after the
HEAVY action, and the head job is then re-examined (in this order: assumption 27, the model's choice). The end of a step moves
the cursor for a step of the current sweep, by 1 or by 2 in SPLIT, and a cursor beyond live end ends the sweep. -/
def Obligations.PatrolStepRuns : Prop :=
  (∀ (h : Nat) (s : State),
    (s.patrol.step = none → patrolSeesLock h s = s ∧ patrolSeesWrite h s = s ∧ patrolSeesQuiesce s = s) ∧
    ∀ st, s.patrol.step = some st →
      let p := s.patrol
      let marked : State := { s with patrol := { p with step := some { st with mark := true } } }
      let withdrawn : State :=
        endStep
          { s with
            media := { s.media with passedOver := 0 }
            patrol :=
              { p with
                tallies :=
                  if st.sweep = p.sweep then { p.tallies with skipped := satInc p.tallies.skipped } else p.tallies }
            counters := { s.counters with patrolSkipped := satInc s.counters.patrolSkipped } }
      (st.hostLine ≠ h → patrolSeesLock h s = s ∧ patrolSeesWrite h s = s) ∧
      (st.hostLine = h →
        (st.state = .waiting → patrolSeesLock h s = withdrawn ∧ patrolSeesWrite h s = s) ∧
        (st.state = .reading ∨ (∃ d, st.state = .writingBack d true) →
          patrolSeesLock h s = marked ∧ patrolSeesWrite h s = marked) ∧
        (∀ d, st.state = .writingBack d false → patrolSeesLock h s = withdrawn ∧ patrolSeesWrite h s = withdrawn)) ∧
      (∀ d, st.state = .writingBack d false → patrolSeesQuiesce s = withdrawn) ∧
      ((∀ d, st.state ≠ .writingBack d false) → patrolSeesQuiesce s = s)) ∧
  (∀ s : State,
    (s.patrol.step = none → endStep s = s) ∧
    ∀ st, s.patrol.step = some st →
      let p := s.patrol
      let moved := p.cursor + (match p.liveMode with | .linear => 1 | .split => 2)
      let removed (cursor : Nat) : State := { s with patrol := { p with step := none, cursor := cursor } }
      (st.sweep ≠ p.sweep → endStep s = removed p.cursor) ∧
      (st.sweep = p.sweep → moved ≤ p.liveEnd → endStep s = removed moved) ∧
      (st.sweep = p.sweep → p.liveEnd < moved → endStep s = sweepEnd (removed moved))) ∧
  ∀ (id : SlotId) (st : PatrolStep) (o : DecodeOutcome) (d : LineData) (s : State), s.patrol.step = some st →
    let p := s.patrol
    let line := Machine.translate s st.hostLine
    let hostWrites (s : State) :=
      (∃ e ∈ s.channel.table, e.hostLine = st.hostLine ∧ e.request ≠ .read ∧ ∃ ctx, e.state = .executing ctx) ∨
        ∃ x ∈ s.channel.residuals, x.hostLine = st.hostLine ∧ x.op = .write
    let current := st.sweep = p.sweep
    let told (r : MediaResult) : State := deliver .patrol id r s
    let tallied (t : Tallies) : State := { s with patrol := { p with tallies := if current then t else p.tallies } }
    let read : Tallies := { p.tallies with lines := satInc p.tallies.lines }
    (st.state = .waiting →
      ∃ t, grant id .patrol s = t ∧ t.media.passedOver = 0 ∧
        t.media.slots[id.val] = .issued { op := .read, line := line, owner := .patrol, timer := 0 } ∧
        t.out.mediaOps = s.out.mediaOps ++ [.read id line] ∧
        t.patrol = { p with step := t.patrol.step } ∧
        ∃ mark, t.patrol.step = some { st with state := .reading, mediaLine := some line, mark := mark } ∧
          (mark = true ↔ hostWrites s)) ∧
    (st.state = .reading →
      told .timeout = endStep s ∧
      (o.cls = .clean → told (.read o d) = endStep (tallied read)) ∧
      (o.cls = .heavy →
        told (.read o d) =
          endStep (heavyPatrol st.hostLine (tallied { read with heavy := satInc p.tallies.heavy }))) ∧
      (o.cls = .lost →
        told (.read o d) =
          endStep
            (listSuspect st.hostLine .lost .patrol
              (raise .dataLost (some st.hostLine) none none [3]
                (tallied { read with lost := satInc p.tallies.lost })))) ∧
      (o.cls = .soft →
        let t := softAction st.hostLine .patrol (tallied { read with soft := satInc p.tallies.soft })
        ∀ st', t.patrol.step = some st' → st'.hostLine = st.hostLine →
          let suppressed :=
            st'.mark = true ∨ hostWrites t ∨ (∃ j ∈ t.queue, j.hostLine = st.hostLine) ∨ t.opState ≠ .ready
          (¬ suppressed →
            told (.read o d) =
              { t with patrol := { t.patrol with step := some { st' with state := .writingBack d false } } }) ∧
          (suppressed →
            told (.read o d) =
              endStep
                { t with
                  patrol :=
                    { t.patrol with
                      tallies :=
                        if st'.sweep = t.patrol.sweep then
                          { t.patrol.tallies with skipped := satInc t.patrol.tallies.skipped }
                        else t.patrol.tallies }
                  counters := { t.counters with patrolSkipped := satInc t.counters.patrolSkipped } })) ∧
      (o.cls = .soft → (∀ x ∈ s.suspects, x.hostLine ≠ st.hostLine) → s.settings.trackSoft = false →
        softAction st.hostLine .patrol (tallied { read with soft := satInc p.tallies.soft }) =
          tallied { read with soft := satInc p.tallies.soft })) ∧
    ∀ data issued, st.state = .writingBack data issued →
      (∀ media, st.mediaLine = some media →
        grant id .patrol s =
          { s with
            media :=
              { slots :=
                  s.media.slots.set id.val
                    (.issued { op := .write (encode data) 1, line := media, owner := .patrol, timer := 0 })
                passedOver := 0 }
            patrol := { p with step := some { st with state := .writingBack data true } }
            out := { s.out with mediaOps := s.out.mediaOps ++ [.write id media (encode data)] } }) ∧
      told .done = examineLine st.hostLine (endStep s) ∧ told .timeout = examineLine st.hostLine (endStep s) ∧
      told .exhausted = examineLine st.hostLine (endStep (heavyPatrol st.hostLine s))

/-! ### Translation and the pool -/

/-- The translation of a host line is ML 4096 + spare with a Retirement Map entry for it and ML 5120 + host line without one;
it lies in the spare pool or in the host area; and an enqueue gives a job kind RERETIRE with the mapped spare as old spare for
a mapped line and RETIRE for an unmapped one. -/
def Obligations.TranslationOfAHostLine : Prop :=
  ∀ (s : State) (h : Nat) (o : Origin) (data : Option LineData) (tag : Option Tag),
    (∀ m, mapEntry s h = some m →
      m ∈ s.lineMap.entries ∧ m.hostLine = h ∧ Machine.translate s h = 4096 + m.spare.val ∧
        (newJob s h o data tag).kind = .reretire m.spare) ∧
    ((∀ m ∈ s.lineMap.entries, m.hostLine ≠ h) →
      mapEntry s h = none ∧ Machine.translate s h = 5120 + h ∧ (newJob s h o data tag).kind = .retire) ∧
    (h < hostLines s → 4096 ≤ Machine.translate s h ∧ Machine.translate s h < mediaLinesOf s.straps)

/-- The four spare counts sum to 1024 in every state; a reservation takes the FREE spare of lowest index, raises attempts used,
puts the head job in PLACING, and raises POOL_LOW with the FREE count exactly where it takes that count from above
spare_low_mark to it or below; with no FREE spare the job ends UNPLACED with POOL_EMPTY. -/
def Obligations.ReservationTakesTheLowestSpare : Prop :=
  ∀ s : State,
    spareCount .free s + spareCount .reserved s + spareCount .inUse s + spareCount .discarded s = 1024 ∧
    ∀ j rest, s.queue = j :: rest →
      (∀ i : Spare, spareState s i = .free → (∀ k : Spare, k < i → spareState s k ≠ .free) →
        let n := spareCount .free s
        let reserved : State :=
          { s with
            lineMap := { s.lineMap with spares := s.lineMap.spares.set i.val .reserved }
            queue := { j with state := .placing, reserved := some i, attempts := j.attempts + 1 } :: rest }
        enterPlacing s =
          if s.settings.spareLowMark < n ∧ n ≤ s.settings.spareLowMark + 1 then
            raise .poolLow none none none [BitVec.ofNat 32 (n - 1)] reserved
          else reserved) ∧
      ((∀ i : Spare, spareState s i ≠ .free) →
        enterPlacing s = endUnplaced (fun h t => raise .poolEmpty (some h) none none [] t) s)

/-! ### The Retirement Engine -/

/-- The answers to job requests. BUFFER: REFUSED outside READY or with the journal FAILED; ADOPTED by a QUEUED FETCH job of the
line, which takes the data and the tag; REFUSED by any other job of the line or with 8 jobs; else ENQUEUED. FETCH: REFUSED,
ALREADY_QUEUED by any job of the line, REFUSED with 8 jobs, else ENQUEUED. An enqueue puts the job record at the tail, takes
the READY entry of the line to HELD, and a patrol step sees the lock as PatrolStepRuns says; an adoption changes its job alone,
and every other answer changes nothing. -/
def Obligations.JobRequestsAreAnswered : Prop :=
  ∀ (h : Nat) (o : Origin) (data : LineData) (tag : Option Tag) (s : State),
    let refusing := s.opState ≠ .ready ∨ s.journal.state = .failed
    let enqueued (answer : Answer × State) (data : Option LineData) (tag : Option Tag) : Prop :=
      answer =
        (.enqueued,
          patrolSeesLock h
            { s with
              queue :=
                s.queue
                  ++ [{ hostLine := h
                        kind := match mapEntry s h with | some m => .reretire m.spare | none => .retire
                        origin := o, source := if data.isSome then .buffer else .fetch, buffer := data, attempts := 0
                        reserved := none, originator := tag, state := .queued }]
              channel :=
                { s.channel with
                  table :=
                    s.channel.table.map fun e =>
                      if e.hostLine = h ∧ e.state = .ready then { e with state := .held } else e } })
    (refusing → bufferRequest h o data tag s = (.refused, s) ∧ fetchRequest h o s = (.refused, s)) ∧
    (¬ refusing →
      (∀ j, jobOf s h = some j →
        fetchRequest h o s = (.alreadyQueued, s) ∧
        (j.source = .fetch ∧ j.state = .queued →
          bufferRequest h o data tag s =
            (.adopted,
              { s with
                queue :=
                  s.queue.map fun x =>
                    if x.hostLine = h then { x with source := .buffer, buffer := some data, originator := tag } else x })) ∧
        (¬ (j.source = .fetch ∧ j.state = .queued) → bufferRequest h o data tag s = (.refused, s))) ∧
      ((∀ j ∈ s.queue, j.hostLine ≠ h) →
        (8 ≤ s.queue.length → bufferRequest h o data tag s = (.refused, s) ∧ fetchRequest h o s = (.refused, s)) ∧
        (s.queue.length < 8 →
          enqueued (bufferRequest h o data tag s) (some data) tag ∧ enqueued (fetchRequest h o s) none none)))

/-- The head job from its examination to its append. It is examined while QUEUED: with the journal FAILED it ends FAILED; else
it waits while an EXECUTING entry other than its originating request, a residual operation or an issued patrol writeback of its
line stands; else it passes to FETCHING, or with a BUFFER to PLACING. Its one claim, while none is in flight, is the read of
the line's translation in FETCHING, the write of its buffer to ML 4096 + spare in PLACING with a spare, the check read of that
line in CHECKING. The FETCH read: LOST ends it LOST, a TIMEOUT UNPLACED, else the corrected data is its buffer and it places. A
DONE placement passes to CHECKING; an EXHAUSTED or timed-out one, or a check read not CLEAN, discards the spare, DISCARDED at
once and counted, and asks for a DISCARD append; a CLEAN check passes to RECORDING and asks for the append of RETIRE, or of
RERETIRE with the old spare. The request, with the journal IDLE, is the pending append, and its write is presented at once or,
where a service read is presented, follows it; with the journal COMPACTING it is held; with the journal FAILED the job ends
FAILED. -/
def Obligations.HeadJobRuns : Prop :=
  (∀ s : State, runHead { s with queue := [] } = { s with queue := [] } ∧
    ∀ line, examineLine line { s with queue := [] } = { s with queue := [] }) ∧
  ∀ (j : Job) (rest : List Job) (s : State), s.queue = j :: rest →
    (∀ line, (line = j.hostLine → examineLine line s = runHead s) ∧ (line ≠ j.hostLine → examineLine line s = s)) ∧
    (let waits :=
       (∃ e ∈ s.channel.table, e.hostLine = j.hostLine ∧ (∃ ctx, e.state = .executing ctx) ∧ j.originator ≠ some e.tag) ∨
         (∃ x ∈ s.channel.residuals, x.hostLine = j.hostLine) ∨
         ∃ st d, s.patrol.step = some st ∧ st.state = .writingBack d true ∧ st.hostLine = j.hostLine
     (j.state ≠ .queued → runHead s = s) ∧
     (j.state = .queued → s.journal.state = .failed → runHead s = runHead (endFailed s)) ∧
     (j.state = .queued → s.journal.state ≠ .failed →
       (waits → runHead s = s) ∧
       (¬ waits →
         (j.source = .fetch → runHead s = { s with queue := { j with state := .fetching } :: rest }) ∧
         (j.source = .buffer → runHead s = runHead (enterPlacing s))))) ∧
    (let inFlight := ∃ (id : SlotId) (r : SlotRecord), s.media.slots[id.val] = .issued r ∧ r.owner = .retirement
     (inFlight → retirementClaim s = none) ∧
     (¬ inFlight →
       (j.state = .fetching → retirementClaim s = some (.read (Machine.translate s j.hostLine))) ∧
       (∀ spare, j.reserved = some spare →
         (∀ data, j.state = .placing → j.buffer = some data →
           retirementClaim s = some (.write (4096 + spare.val) data)) ∧
         (j.state = .checking → retirementClaim s = some (.read (4096 + spare.val)))) ∧
       (j.state = .queued ∨ j.state = .recording ∨ j.state = .placing ∧ j.reserved = none →
         retirementClaim s = none))) ∧
    ∀ (id : SlotId) (o : DecodeOutcome) (d : LineData),
      let told (r : MediaResult) : State := deliver .retirement id r s
      (j.state = .fetching →
        told .timeout = runHead (endUnplaced (fun _ t => t) s) ∧
        (o.cls = .lost → told (.read o d) = runHead (endLost s)) ∧
        (o.cls ≠ .lost →
          told (.read o d) = runHead (enterPlacing { s with queue := { j with buffer := some d } :: rest }))) ∧
      ∀ spare, j.reserved = some spare →
        let asks (r : AppendRecord) (job : Job) (t u : State) : Prop :=
          let asking : State := { t with queue := job :: rest }
          (s.journal.state = .idle → s.journal.presented = none → s.journal.service = none → s.journal.active ≠ none →
            u =
              { asking with
                journal :=
                  { s.journal with state := .appending, pending := some r, work := .append, presented := some .work } }) ∧
          (s.journal.state = .idle → s.journal.presented = some .service →
            u = { asking with journal := { s.journal with state := .appending, pending := some r, work := .append } }) ∧
          (s.journal.state = .compacting → u = { asking with journal := { s.journal with pending := some r } }) ∧
          (s.journal.state = .failed → u = runHead (endFailed asking))
        let discards : State → Prop :=
          asks (.discard spare) { j with state := .placing, reserved := none }
            { s with
              lineMap := { s.lineMap with spares := s.lineMap.spares.set spare.val .discarded }
              counters := { s.counters with sparesDiscarded := satInc s.counters.sparesDiscarded } }
        let records (r : AppendRecord) : State → Prop := asks r { j with state := .recording } s
        (j.state = .placing →
          told .done = { s with queue := { j with state := .checking } :: rest } ∧
          discards (told .exhausted) ∧ discards (told .timeout)) ∧
        (j.state = .checking →
          (o.cls ≠ .clean → discards (told (.read o d))) ∧ discards (told .timeout) ∧
          (o.cls = .clean →
            (j.kind = .retire → records (.retire j.hostLine spare) (told (.read o d))) ∧
            (∀ old, j.kind = .reretire old → records (.reretire j.hostLine spare old) (told (.read o d)))))

/-- The commit of the head job: the map entry with the job's origin and the record's generation, the reserved spare IN_USE and
for RERETIRE the old spare DISCARDED and counted, the suspect entry removed, retirements_committed raised, RETIRED raised, the
job out of the queue, the originating entry COMPLETING with OK and the HELD entry of the line READY; then the promotion and the
drain check of an ending. With the state READY and auto_retire off neither of these does anything. -/
def Obligations.CommitOfTheHeadJob : Prop :=
  ∀ (j : Job) (rest : List Job) (spare : Spare) (generation : BitVec 32) (s : State),
    s.queue = j :: rest → j.reserved = some spare →
    let c := s.counters
    let m : MapEntry := { hostLine := j.hostLine, spare := spare, origin := j.origin, generation := generation }
    let freed (e : Entry) : Entry :=
      let told :=
        if j.originator = some e.tag then
          (match e.state with | .retiring ctx => { e with state := .completing .ok none (some ctx) } | _ => e)
        else e
      if told.hostLine = j.hostLine ∧ told.state = .held then { told with state := readyState told.request } else told
    let committed (entries : List MapEntry) (spares : Vector SpareState 1024) (counters : Counters) (old : Option Spare) :
        Prop :=
      let done : State :=
        { raise .retired (some j.hostLine) (some spare) old [BitVec.ofNat 32 (originCode j.origin)]
            { s with
              lineMap := { entries := entries, spares := spares }
              suspects := s.suspects.filter fun x => x.hostLine != j.hostLine
              counters := { counters with retirementsCommitted := satInc c.retirementsCommitted } } with
          queue := rest
          channel := { s.channel with table := s.channel.table.map freed } }
      commitHead generation s = drainCheck (promote done) ∧
        (s.opState = .ready → s.settings.autoRetire = false → commitHead generation s = done)
    (j.kind = .retire → (∀ x ∈ s.lineMap.entries, x.hostLine ≠ j.hostLine) →
      committed (s.lineMap.entries ++ [m]) (s.lineMap.spares.set spare.val .inUse) c none) ∧
    (∀ old, j.kind = .reretire old → (∃ x ∈ s.lineMap.entries, x.hostLine = j.hostLine) →
      committed (s.lineMap.entries.map fun x => if x.hostLine = j.hostLine then m else x)
        ((s.lineMap.spares.set spare.val .inUse).set old.val .discarded)
        { c with sparesDiscarded := satInc c.sparesDiscarded } (some old))

/-- The endings of the head job without a commit: UNPLACED lists the line UNPLACED, after no notice, POOL_EMPTY or
RETIRE_FAILED with cause ATTEMPTS; LOST raises DATA_LOST with origin FETCH and lists it LOST; FAILED releases the reserved
spare, raises RETIRE_FAILED with cause JOURNAL and lists it DEFERRED; each raises retirements_failed and takes the job out of
the queue; UNPLACED and FAILED hand the data back to the RETIRING entry, which is EXECUTING for a write in place with returned
set (its phase WRITE from then on is assumption 24, the model's choice), as a patrol step of the line sees in the manner of
PatrolStepRuns; the HELD entry of the line becomes READY. UNPLACED and LOST then consider a promotion: in READY with the
journal not FAILED and auto_retire on a FETCH request with origin PROMOTED for the oldest DEFERRED line with no job, else
nothing. Last comes the drain check: in QUIESCING with the queue empty and the journal IDLE or FAILED the state passes to QUIET
with QUIET_REACHED, else nothing. -/
def Obligations.EndingsWithoutCommit : Prop :=
  (∀ s : State,
    (s.opState ≠ .ready ∨ s.journal.state = .failed ∨ s.settings.autoRetire = false → promote s = s) ∧
    (s.opState = .ready → s.journal.state ≠ .failed → s.settings.autoRetire = true →
      (∀ older x younger, s.suspects = older ++ x :: younger → x.reason = .deferred →
        (∀ j ∈ s.queue, j.hostLine ≠ x.hostLine) →
        (∀ y ∈ older, y.reason = .deferred → ∃ j ∈ s.queue, j.hostLine = y.hostLine) →
        promote s = (fetchRequest x.hostLine .promoted s).2) ∧
      ((∀ x ∈ s.suspects, x.reason = .deferred → ∃ j ∈ s.queue, j.hostLine = x.hostLine) → promote s = s)) ∧
    let drained := s.opState = .quiescing ∧ s.queue = [] ∧ (s.journal.state = .idle ∨ s.journal.state = .failed)
    (drained → drainCheck s = raise .quietReached none none none [] { s with opState := .quiet }) ∧
    (¬ drained → drainCheck s = s)) ∧
  ∀ (j : Job) (rest : List Job) (s : State), s.queue = j :: rest →
    let ended (handsBack : Bool) (t : State) : State :=
      let handed : State :=
        { t with
          counters := { t.counters with retirementsFailed := satInc t.counters.retirementsFailed }
          channel :=
            { t.channel with
              table :=
                t.channel.table.map fun e =>
                  if handsBack = true ∧ j.originator = some e.tag then
                    (match e.state with
                      | .retiring ctx =>
                        { e with
                          state :=
                            .executing
                              { ctx with phase := .write, returned := true, lineData := j.buffer.or ctx.lineData } }
                      | _ => e)
                  else e } }
      let seen := if handsBack = true ∧ j.originator ≠ none then patrolSeesWrite j.hostLine handed else handed
      { seen with
        queue := rest
        channel :=
          { seen.channel with
            table :=
              seen.channel.table.map fun e =>
                if e.hostLine = j.hostLine ∧ e.state = .held then { e with state := readyState e.request } else e } }
    let listed (reason : Reason) (t : State) : State := listSuspect j.hostLine reason j.origin t
    let unplaced (notice : Nat → State → State) : Prop :=
      endUnplaced notice s = drainCheck (promote (ended true (listed .unplaced (notice j.hostLine s))))
    unplaced (fun _ t => t) ∧ unplaced (fun h t => raise .poolEmpty (some h) none none [] t) ∧
    unplaced (fun h t => raise .retireFailed (some h) none none [1] t) ∧
    endLost s =
      drainCheck (promote (ended false (listed .lost (raise .dataLost (some j.hostLine) none none [9] s)))) ∧
    (j.reserved = none →
      endFailed s =
        drainCheck (ended true (listed .deferred (raise .retireFailed (some j.hostLine) none none [2] s)))) ∧
    ∀ spare, j.reserved = some spare →
      endFailed s =
        drainCheck
          (ended true
            (listed .deferred
              (raise .retireFailed (some j.hostLine) none none [2]
                { s with lineMap := { s.lineMap with spares := s.lineMap.spares.set spare.val .free } })))

/-- A commit and a replayed record keep the law of the Retirement Map: one entry for each IN_USE spare and no others, no host
line and no spare in two entries. -/
def Obligations.CommitAndReplayKeepTheMapLaw : Prop :=
  ∀ s : State, MapLaw s →
    (∀ (j : Job) (spare : Spare) (generation : BitVec 32), spareState s spare = .reserved →
      (j.kind = .retire → mapEntry s j.hostLine = none → MapLaw (commitMap j spare generation s)) ∧
      (∀ old, j.kind = .reretire old → (mapEntry s j.hostLine).map MapEntry.spare = some old →
        MapLaw (commitMap j spare generation s))) ∧
    ∀ (r : AppendRecord) (generation : BitVec 32), recordFits s r = true → MapLaw (applyRecord generation r s)

/-! ### The Health Tracker and the Notice Unit -/

/-- A listing: a listed line's hits rise by 1 up to 255 and its reason is raised in the order SOFT < HEAVY < DEFERRED <
UNPLACED < LOST; a new line joins at the tail with hits 1, the sweep number and the origin; with 64 entries the oldest SOFT
entry is evicted with SUSPECT_EVICTED, or, where none stands, SUSPECT_OVERFLOW is raised and counted and the list is unchanged.
The SOFT action lists a listed line, or any with track_soft on, and does nothing else; an entry then at or above soft_limit
with auto_retire on asks for a FETCH job, for a locked line too (assumption 30, the model's choice), and a REFUSED request
raises its reason to DEFERRED. A HEAVY outcome with data lists the line HEAVY with auto_retire off; on, a BUFFER request:
ENQUEUED or ADOPTED, a listed line is listed HEAVY and the job has taken it; REFUSED, the line is listed DEFERRED. The patrol's
HEAVY is the same with a FETCH request. -/
def Obligations.ListingsAndTrackerActions : Prop :=
  (∀ (h : Nat) (reason : Reason) (o : Origin) (s : State),
    let entry : Suspect := { hostLine := h, reason := reason, hits := 1, sweep := s.patrol.sweep, origin := o }
    let higher (a b : Reason) : Reason := if reasonCode a ≤ reasonCode b then b else a
    ((∃ x ∈ s.suspects, x.hostLine = h) →
      listSuspect h reason o s =
        { s with
          suspects :=
            s.suspects.map fun x =>
              if x.hostLine = h then { x with hits := min 255 (x.hits + 1), reason := higher x.reason reason } else x }) ∧
    ((∀ x ∈ s.suspects, x.hostLine ≠ h) →
      (s.suspects.length < 64 → listSuspect h reason o s = { s with suspects := s.suspects ++ [entry] }) ∧
      (64 ≤ s.suspects.length →
        (∀ older v younger, s.suspects = older ++ v :: younger → v.reason = .soft → (∀ x ∈ older, x.reason ≠ .soft) →
          (s.suspects.map Suspect.hostLine).Nodup →
          listSuspect h reason o s =
            { raise .suspectEvicted (some v.hostLine) none none [] s with
              suspects := older ++ younger ++ [entry] }) ∧
        ((∀ x ∈ s.suspects, x.reason ≠ .soft) →
          let told := raise .suspectOverflow (some h) none none [] s
          listSuspect h reason o s =
            { told with
              counters := { told.counters with suspectOverflows := satInc told.counters.suspectOverflows } })))) ∧
  ∀ (h : Nat) (o : Origin) (data : LineData) (tag : Option Tag) (s : State),
    let listed (t : State) := ∃ x ∈ t.suspects, x.hostLine = h
    let auto := s.settings.autoRetire = true
    let counted := listSuspect h .soft o s
    let asks := auto ∧ ∃ x, suspectOf counted h = some x ∧ s.settings.softLimit ≤ x.hits
    (¬ listed s → s.settings.trackSoft = false → softAction h o s = s) ∧
    (listed s ∨ s.settings.trackSoft = true →
      (¬ asks → softAction h o s = counted) ∧
      (asks → ∀ t,
        (fetchRequest h o counted = (.enqueued, t) → softAction h o s = examineLine h t) ∧
        (fetchRequest h o counted = (.alreadyQueued, t) → softAction h o s = t) ∧
        (fetchRequest h o counted = (.refused, t) →
          softAction h o s =
            { t with
              suspects :=
                t.suspects.map fun x =>
                  if x.hostLine = h ∧ reasonCode x.reason ≤ reasonCode .deferred then { x with reason := .deferred }
                  else x }))) ∧
    (¬ auto →
      heavyWithData h o data tag s = (false, listSuspect h .heavy o s) ∧
        heavyPatrol h s = listSuspect h .heavy .patrol s) ∧
    (auto → ∀ answer t,
      (bufferRequest h o data tag s = (answer, t) →
        (answer = .refused → heavyWithData h o data tag s = (false, listSuspect h .deferred o t)) ∧
        (answer = .enqueued ∨ answer = .adopted →
          (listed t → heavyWithData h o data tag s = (true, listSuspect h .heavy o t)) ∧
          (¬ listed t → heavyWithData h o data tag s = (true, t)))) ∧
      (fetchRequest h .patrol s = (answer, t) →
        (answer = .refused → heavyPatrol h s = listSuspect h .deferred .patrol t) ∧
        (answer = .alreadyQueued →
          (listed t → heavyPatrol h s = listSuspect h .heavy .patrol t) ∧ (¬ listed t → heavyPatrol h s = t)) ∧
        (answer = .enqueued →
          (listed t → heavyPatrol h s = examineLine h (listSuspect h .heavy .patrol t)) ∧
          (¬ listed t → heavyPatrol h s = examineLine h t))))

/-- The raising of a notice: it takes the current sequence, which rises by 1 and wraps, and the part time, and joins the tail
of a queue of fewer than 32; one whose kind is in urgent_mask then makes an alert request, which asserts a RELEASED line and
arms an ASSERTED one; into a full queue it is dropped and counted, with no alert request. -/
def Obligations.RaisingOfANotice : Prop :=
  ∀ (k : NoticeKind) (h : Option Nat) (spare old : Option Spare) (values : List (BitVec 32)) (s : State),
    let n := s.notices
    let notice : Notice :=
      { kind := k, sequence := n.sequence, partTime := n.partTime, hostLine := h, spare := spare, oldSpare := old,
        values := values }
    let entered (alert armed : Bool) : State :=
      { s with
        notices :=
          { n with sequence := n.sequence + 1, queue := n.queue ++ [notice], alert := alert, armed := armed } }
    let urgent := s.settings.urgentMask.getLsbD (noticeCode k) = true
    (n.queue.length < 32 →
      (¬ urgent → raise k h spare old values s = entered n.alert n.armed) ∧
      (urgent → n.alert = false → raise k h spare old values s = entered true n.armed) ∧
      (urgent → n.alert = true → raise k h spare old values s = entered true true)) ∧
    (32 ≤ n.queue.length →
      raise k h spare old values s =
        { s with
          notices := { n with sequence := n.sequence + 1 }
          counters := { s.counters with noticesDropped := satInc s.counters.noticesDropped } })

/-! ### The Integrity Unit -/

/-- The class of a decode by the first case that applies: OVER at any interleave, LOST; total 0, CLEAN; an interleave at 2 or a
total of heavy_total or more, HEAVY; otherwise SOFT, with each count 0 or 1 and a total of 1 to 4 below heavy_total. Total is
the sum of the counts that are not OVER; the settings 5 to 8 classify alike; the value used is the one that the setting holds
when the decode completes. -/
def Obligations.CodeClassification : Prop :=
  (∀ (heavyTotal : Nat) (counts : Vector Count 4),
    let o := outcomeOf heavyTotal counts
    let total := counts.toList.count .one + 2 * counts.toList.count .two
    o.counts = counts ∧ o.total = total ∧
    (Count.over ∈ counts.toList → o.depth = .over ∧ o.cls = .lost) ∧
    (Count.over ∉ counts.toList →
      o.depth =
          (if Count.two ∈ counts.toList then .two else if Count.one ∈ counts.toList then .one else .zero) ∧
        (total = 0 → o.cls = .clean) ∧
        (total ≠ 0 → Count.two ∈ counts.toList ∨ heavyTotal ≤ total → o.cls = .heavy) ∧
        (total ≠ 0 → Count.two ∉ counts.toList → total < heavyTotal → o.cls = .soft)) ∧
    (o.cls = .soft →
      (∀ c ∈ counts.toList, c = .zero ∨ c = .one) ∧ 1 ≤ total ∧ total ≤ 4 ∧ total < heavyTotal) ∧
    ∀ a b, 5 ≤ a → a ≤ 8 → 5 ≤ b → b ≤ 8 → (outcomeOf a counts).cls = (outcomeOf b counts).cls) ∧
  ∀ (id : SlotId) (w : Codeword) (s : State) line owner timer,
    s.media.slots[id.val] = .issued { op := .read, line := line, owner := owner, timer := timer } →
      readDataArrives id w s = acceptRead id owner (decodeOutcome s.settings.heavyTotal w) (decodeData w) s ∧
        ∃ counts : Vector Count 4, ∀ heavyTotal, decodeOutcome heavyTotal w = outcomeOf heavyTotal counts

/-- What the decode of an interleave reports and delivers. An interleave that differs from a valid one in no symbol, one or two
is reported 0, 1 or 2 and corrected to it, and one that differs from it in exactly three is OVER and delivered as read (R22),
for every code of the kind that R20 and R22 allow. For any interleave, in the model's reading of R22 (assumption 1): OVER where
no valid interleave differs from the symbols read in two or fewer, and the symbols as read; otherwise a valid interleave that
differs from them in exactly as many symbols as the count says, and none differs in fewer. Interleave i of a codeword is its
data bytes i, i + 4, up to i + 60 and the five check bytes from 64 + 5 i on; the counts of the codeword's decode are those of
its four interleaves, and each data byte delivered is that of its interleave's decode: as read where that is OVER. -/
def Obligations.DecodingWithinTwoSymbols : Prop :=
  (∀ (heavyTotal : Nat) (w : Codeword),
    let part (i : Nat) : Count × Interleave := decodeInterleave i (interleaveOf w i)
    (∀ i : Fin 4,
      (∀ p : Fin 16, (interleaveOf w i.val)[p.val] = w[i.val + 4 * p.val]) ∧
        ∀ p : Fin 5, (interleaveOf w i.val)[16 + p.val] = w[64 + 5 * i.val + p.val]) ∧
    decodeOutcome heavyTotal w = outcomeOf heavyTotal #v[(part 0).1, (part 1).1, (part 2).1, (part 3).1] ∧
    ∀ n : Fin 64,
      byteAt (decodeData w) n.val = (part (n.val % 4)).2[n.val / 4] ∧
        ((part (n.val % 4)).1 = .over → byteAt (decodeData w) n.val = w[n.val])) ∧
  ∀ (i : Nat) (v : Interleave),
    let differences (u : Interleave) : Nat := ((List.finRange 21).filter fun p => u[p.val] != v[p.val]).length
    let count := (decodeInterleave i v).1
    let delivered := (decodeInterleave i v).2
    (∀ u, isValid i u = true →
      (differences u = 0 → count = .zero ∧ delivered = u) ∧ (differences u = 1 → count = .one ∧ delivered = u) ∧
        (differences u = 2 → count = .two ∧ delivered = u) ∧ (differences u = 3 → count = .over ∧ delivered = v)) ∧
    (count = .over ↔ ∀ u, isValid i u = true → 2 < differences u) ∧
    (count = .over ∧ delivered = v ∨
      count ≠ .over ∧ isValid i delivered = true ∧ differences delivered = countCorrections count) ∧
    ∀ u, isValid i u = true → countCorrections count ≤ differences u

/-- Encoding and decoding agree: a line decodes from its codeword CLEAN, with every count 0, to its own 64 bytes, whatever the
code's arithmetic; a codeword with at most two changed symbols in each interleave decodes to the line written, with the number
of changed symbols as each count, and one with exactly three in an interleave decodes LOST with the data bytes of that
interleave as read; a line of zeros encodes to 84 zero bytes and back; the code is linear; and a change of one data byte
changes no check byte of another interleave. -/
def Obligations.EncodeThenDecode : Prop :=
  (∀ (heavyTotal : Nat) (d : LineData),
    decodeData (encode d) = d ∧
      decodeOutcome heavyTotal (encode d) =
        { counts := Vector.replicate 4 .zero, depth := .zero, total := 0, cls := .clean }) ∧
  (∀ (heavyTotal : Nat) (d : LineData) (w : Codeword),
    let changed (i : Nat) : Nat :=
      ((List.finRange 21).filter fun p => (interleaveOf w i)[p.val] != (interleaveOf (encode d) i)[p.val]).length
    let o := decodeOutcome heavyTotal w
    ((∀ i : Fin 4, changed i.val ≤ 2) →
      decodeData w = d ∧
        ∀ i : Fin 4, o.counts[i.val] = (match changed i.val with | 0 => .zero | 1 => .one | _ => .two)) ∧
    ∀ i : Fin 4, changed i.val = 3 →
      o.cls = .lost ∧ o.counts[i.val] = .over ∧ ∀ p : Fin 16, byteAt (decodeData w) (i.val + 4 * p.val) = w[i.val + 4 * p.val]) ∧
  encode zeroLine = Vector.replicate 84 0 ∧
  (∀ (a b : LineData) (n : Fin 84),
    (encode (Vector.zipWith (fun x y => x ^^^ y) a b))[n.val] = (encode a)[n.val] ^^^ (encode b)[n.val]) ∧
  ∀ (d : LineData) (k : Fin 64) (x : Byte) (n : Fin 84),
    (n.val < 64 → (encode d)[n.val] = byteAt d n.val) ∧
      (64 ≤ n.val → (n.val - 64) / 5 ≠ k.val % 4 → (encode (d.set k.val x))[n.val] = (encode d)[n.val])

/-! ### The journal -/

/-- The lines of the journal and what is read from them agree: a header gives back its generation under its own size code and
no other, and not when it decodes LOST; a record gives back its kind, generation, host line and spares with a check value that
matches; the bitmap lines carry every flag both ways; a line of zeros is a blank header and a BLANK record. -/
def Obligations.JournalLinesRoundTrip : Prop :=
  (∀ (generation : BitVec 32) (straps sampled : BitVec 2) (o : DecodeOutcome), generation ≠ 0 →
    headerOf sampled o (headerLine generation straps) =
      if o.cls ≠ .lost ∧ sampled = straps then some generation else none) ∧
  (∀ (generation : BitVec 32) (r : AppendRecord) (limit : Nat), limit ≤ 33549312 →
    (match r with
      | .retire h _ => h < limit
      | .reretire h n o => h < limit ∧ n ≠ o
      | .discard _ => True) →
    let raw := recordOf (recordLine generation r)
    raw.kind = (match r with | .retire _ _ => 1 | .reretire _ _ _ => 2 | .discard _ => 3) ∧
      raw.generation = generation ∧ raw.checkMatches = true ∧ consistentRecord limit raw = some r) ∧
  (∀ flags : BitVec 512, bitmapFlags (bitmapLine flags) = flags) ∧ (∀ d : LineData, bitmapLine (bitmapFlags d) = d) ∧
  (recordOf zeroLine).kind = 0 ∧ ∀ straps o, headerOf straps o zeroLine = none

/-- Header selection. The header of half A, ML 0, is read first; its decode keeps the generation of a valid header and the
header of half B, ML 2048, is read next. The choice is made at the decode of half B's header. A header is valid when it is not
LOST, its marker, check value and size code match and its generation is not 0. With none valid the state passes to UNFORMATTED
with REBUILD_DONE; otherwise the valid half of higher generation, A where they are equal, becomes active with its generation
and the tail slot 0, and its first bitmap line is read next. A held service read is presented before the next read. -/
def Obligations.HeaderSelection : Prop :=
  ∀ (o : DecodeOutcome) (d : LineData) (s : State), s.journal.presented = some .work →
    let claim : Option Presented := if s.journal.service = none then some .work else some .service
    let header := headerOf s.straps o d
    let decoded := journalResult (.read o d) s
    (∀ g, header = some g ↔
      o.cls ≠ .lost ∧ d.toList.take 4 = [0x4B, 0x4A, 0x52, 0x31] ∧ read16 d 9 = checkValue (d.toList.take 9) ∧
        (byteAt d 8).toNat = s.straps.toNat ∧ g ≠ 0 ∧ read32 d 4 = g) ∧
    (s.journal.work = .rebuild .headerA →
      journalRequest s = some (.read 0) ∧
      decoded = { s with journal := { s.journal with work := .rebuild (.headerB header), presented := claim } } ∧
      workRequest decoded = some (.read 2048)) ∧
    ∀ a : Option (BitVec 32), s.journal.work = .rebuild (.headerB a) →
      let chooses (h : Half) (generation : BitVec 32) : Prop :=
        decoded =
            { s with
              journal :=
                { s.journal with
                  active := some h, generation := generation, tail := 0, work := .rebuild .bitmapLow,
                  presented := claim } } ∧
          freeSlots decoded = 2045 ∧ workRequest decoded = some (.read (match h with | .a => 1 | .b => 2049))
      (a = none → header = none →
        decoded =
          raise .rebuildDone none none none
            [2, BitVec.ofNat 32 s.lineMap.entries.length, BitVec.ofNat 32 (spareCount .discarded s),
              s.journal.generation]
            { s with
              opState := .unformatted
              journal := { s.journal with work := .none, presented := s.journal.service.map fun _ => .service } }) ∧
      (∀ ga, a = some ga → header = none → chooses .a ga) ∧ (∀ gb, a = none → header = some gb → chooses .b gb) ∧
      ∀ ga gb, a = some ga → header = some gb →
        (gb.toNat ≤ ga.toNat → chooses .a ga) ∧ (ga.toNat < gb.toNat → chooses .b gb)

/-- The judgement of a replayed record, by the first row that applies: LOST, torn; BLANK, clean; a kind code outside the four,
torn; a check value that fails, torn; another generation, clean; inconsistent, or its condition against the map and pool not
met, torn; otherwise the record is applied, the tail slot rises by 1, the free-slot count falls by 1 and the next slot is read,
or replay ends clean after slot 2044. That the fields a kind does not use are not judged, a DISCARD's host line and a RETIRE's
and a DISCARD's old spare, is the model's reading (assumption 15, DEDUCED). -/
def Obligations.RecordJudgement : Prop :=
  ∀ (h : Half) (o : DecodeOutcome) (d : LineData) (s : State),
    s.journal.work = .rebuild .record → s.journal.presented = some .work → s.journal.active = some h →
    let claim : Option Presented := if s.journal.service = none then some .work else some .service
    let decoded := journalResult (.read o d) s
    let read : State := { s with journal := { s.journal with presented := none } }
    let torn := decoded = presentNext (endReplay true read)
    let clean := decoded = presentNext (endReplay false read)
    let kind := byteAt d 0
    let line := (read32 d 5).toNat
    let whole := o.cls ≠ .lost ∧ read16 d 13 = checkValue (d.toList.take 13)
    let applied (entries : List MapEntry) (spares : Vector SpareState 1024) : Prop :=
      let t : State := { s with lineMap := { entries := entries, spares := spares } }
      (s.journal.tail < 2044 →
        decoded = { t with journal := { s.journal with tail := s.journal.tail + 1, presented := claim } } ∧
          freeSlots decoded + 1 = freeSlots s ∧
          workRequest decoded = some (.read (slotAddress h (s.journal.tail + 1)))) ∧
      (2044 ≤ s.journal.tail →
        decoded =
          presentNext
            (endReplay false { t with journal := { s.journal with tail := s.journal.tail + 1, presented := none } }))
    let unmapped := ∀ x ∈ s.lineMap.entries, x.hostLine ≠ line
    let entry (spare : Spare) : MapEntry :=
      { hostLine := line, spare := spare, origin := .replay, generation := s.journal.generation }
    (o.cls = .lost → torn) ∧
    (o.cls ≠ .lost → kind = 0 → clean) ∧
    (o.cls ≠ .lost → 3 < kind.toNat → torn) ∧
    (o.cls ≠ .lost → kind ≠ 0 → read16 d 13 ≠ checkValue (d.toList.take 13) → torn) ∧
    (whole → kind = 1 ∨ kind = 2 ∨ kind = 3 → read32 d 1 ≠ s.journal.generation → clean) ∧
    (whole → read32 d 1 = s.journal.generation →
      (kind = 1 ∨ kind = 2 ∨ kind = 3 → 1024 ≤ (read16 d 9).toNat → torn) ∧
      (kind = 1 ∨ kind = 2 → hostLines s ≤ line → torn) ∧
      ∀ new : Spare, (read16 d 9).toNat = new.val →
        (kind = 1 ∨ kind = 2 ∨ kind = 3 → spareState s new ≠ .free → torn) ∧
        (kind = 3 → spareState s new = .free →
          applied s.lineMap.entries (s.lineMap.spares.set new.val .discarded)) ∧
        (kind = 1 → line < hostLines s →
          (¬ unmapped → torn) ∧
          (unmapped → spareState s new = .free →
            applied (s.lineMap.entries ++ [entry new]) (s.lineMap.spares.set new.val .inUse))) ∧
        (kind = 2 → line < hostLines s →
          (1024 ≤ (read16 d 11).toNat → torn) ∧
          ∀ old : Spare, (read16 d 11).toNat = old.val →
            (old = new ∨ (mapEntry s line).map MapEntry.spare ≠ some old → torn) ∧
            (old ≠ new → (mapEntry s line).map MapEntry.spare = some old → spareState s new = .free →
              applied (s.lineMap.entries.map fun x => if x.hostLine = line then entry new else x)
                ((s.lineMap.spares.set new.val .inUse).set old.val .discarded))))

/-- The rest of the rebuild. A TIMEOUT of any read ends it in HALTED with cause MEDIA_TIMEOUT, and a LOST bitmap line in HALTED
with cause BITMAP_LOST and no flag applied; after the first bitmap line the second is read, and with both read each set flag
takes its spare to DISCARDED and the records are read from slot 0, a held service read being presented before each. The end of
replay, from the state that RecordJudgement names: a clean one with 64 slots free or more ends the rebuild with the journal
IDLE, in READY with PWARN deasserted, and with it asserted in QUIESCING and by the drain check in QUIET after QUIET_REACHED
where no job is queued; a torn one, after JOURNAL_REPAIRED, and a clean one with fewer slots free start a compaction, whose
ends in REBUILD CompactionRuns gives. -/
def Obligations.RebuildEnds : Prop :=
  let ended (outcome : BitVec 32) (s t : State) : State :=
    raise .rebuildDone none none none
      [outcome, BitVec.ofNat 32 s.lineMap.entries.length, BitVec.ofNat 32 (spareCount .discarded s),
        s.journal.generation] t
  (∀ (step : RebuildStep) (s : State), s.journal.work = .rebuild step → s.journal.presented = some .work →
    let claim : Option Presented := if s.journal.service = none then some .work else some .service
    let halted (cause : HaltCause) : State :=
      ended 3 s
        { s with
          opState := .halted
          haltCause := cause
          journal := { s.journal with work := .none, presented := s.journal.service.map fun _ => .service } }
    journalResult .timeout s = halted .mediaTimeout ∧
    ∀ (h : Half) (o : DecodeOutcome) (d : LineData) (low : BitVec 512), s.journal.active = some h →
      let decoded := journalResult (.read o d) s
      let base : Nat := match h with | .a => 0 | .b => 2048
      (step = .bitmapLow →
        (o.cls = .lost → decoded = halted .bitmapLost) ∧
        (o.cls ≠ .lost →
          decoded =
              { s with journal := { s.journal with work := .rebuild (.bitmapHigh (bitmapFlags d)), presented := claim } } ∧
            workRequest decoded = some (.read (base + 2)))) ∧
      (step = .bitmapHigh low →
        (o.cls = .lost → decoded = halted .bitmapLost) ∧
        (o.cls ≠ .lost → ∃ spares : Vector SpareState 1024,
          (∀ i : Spare, spares[i.val] =
            if (if i.val < 512 then low.getLsbD i.val else (bitmapFlags d).getLsbD (i.val - 512)) then .discarded
            else spareState s i) ∧
          decoded =
              { s with
                lineMap := { s.lineMap with spares := spares }
                journal :=
                  { s.journal with bitmap := bitmapFlags d ++ low, work := .rebuild .record, presented := claim } } ∧
            workRequest decoded = some (.read (base + 3 + s.journal.tail))))) ∧
  ∀ s : State,
    let compacts (t : State) : Prop :=
      ∃ c, c.generation = s.journal.generation + 1 ∧ c.flags = discardFlags s ∧ c.carries = false ∧
        c.records = (presentedEntries s).length ∧ c.todo = compactionWrites (presentedEntries s) none ∧
        t.journal = { s.journal with state := .compacting, work := .compact c }
    let repaired := raise .journalRepaired none none none [BitVec.ofNat 32 s.journal.tail] s
    (64 ≤ 2045 - s.journal.tail →
      let done := ended 1 s { s with journal := { s.journal with state := .idle, work := .none } }
      (s.pins.pwarn = false → endReplay false s = { done with opState := .ready }) ∧
      (s.pins.pwarn = true → s.queue = [] →
        endReplay false s = raise .quietReached none none none [] { done with opState := .quiet }) ∧
      (s.pins.pwarn = true → s.queue ≠ [] → endReplay false s = { done with opState := .quiescing })) ∧
    (2045 - s.journal.tail < 64 → endReplay false s = startCompaction false s) ∧
    endReplay true s = startCompaction false repaired ∧
    (s.journal.generation ≠ BitVec.allOnes 32 →
      (2045 - s.journal.tail < 64 → compacts (endReplay false s) ∧ (endReplay false s).notices = s.notices) ∧
      compacts (endReplay true s) ∧ (endReplay true s).notices = repaired.notices)

/-- The append of a record: its write goes to the tail slot of the active half. DONE raises the tail slot, clears the pending
append and answers it with the active generation, a RETIRE or RERETIRE with the commit of the head job; then a compaction
starts when fewer than 64 slots are free, and otherwise the journal passes to IDLE with the drain check. EXHAUSTED and TIMEOUT
keep the record pending and the tail slot, set the uncertain slot to it and start a compaction that carries the record, which
fails at once from the last generation as CompactionRuns says. The journal's next claim is then presented, a held service read
first, as ServiceReadAnswers says. -/
def Obligations.AppendEnds : Prop :=
  ∀ (h : Half) (r : AppendRecord) (result : MediaResult) (s : State),
    s.journal.work = .append → s.journal.presented = some .work → s.journal.active = some h → s.journal.pending = some r →
    let j := s.journal
    let claim : Option Presented := if j.service = none then some .work else some .service
    let advanced : State :=
      { s with journal := { j with tail := j.tail + 1, pending := none, work := .none, presented := none } }
    let answered : State :=
      match r with
      | .retire _ _ => runHead (commitHead j.generation advanced)
      | .reretire _ _ _ => runHead (commitHead j.generation advanced)
      | .discard _ =>
        runHead
          (match s.queue with
            | [] => advanced
            | job :: _ =>
              if 4 ≤ job.attempts then
                endUnplaced (fun line t => raise .retireFailed (some line) none none [1] t) advanced
              else enterPlacing advanced)
    journalRequest s = some (.write (slotAddress h j.tail) (recordLine j.generation r)) ∧
    (64 ≤ 2045 - (j.tail + 1) →
      journalResult .done s =
        presentNext
          (drainCheck { answered with journal := { answered.journal with state := .idle, work := .none } })) ∧
    (2045 - (j.tail + 1) < 64 → journalResult .done s = presentNext (startCompaction false answered)) ∧
    (result = .exhausted ∨ result = .timeout →
      journalResult result s =
        presentNext
          (startCompaction true { s with journal := { j with uncertain := some j.tail, presented := none } })) ∧
    (result = .exhausted ∨ result = .timeout → j.generation ≠ BitVec.allOnes 32 →
      ∃ c, c.generation = j.generation + 1 ∧ c.carries = true ∧ c.flags = discardFlags s ∧
        (∀ line spare, r = .retire line spare →
          c.todo = compactionWrites (presentedEntries s) (some r) ∧ c.records = (presentedEntries s).length + 1) ∧
        (∀ line spare old, r = .reretire line spare old →
          c.todo = compactionWrites (presentedEntries s) (some r) ∧ c.records = (presentedEntries s).length + 1) ∧
        (∀ spare, r = .discard spare →
          c.todo = compactionWrites (presentedEntries s) none ∧ c.records = (presentedEntries s).length) ∧
        journalResult result s =
          { s with
            journal := { j with state := .compacting, uncertain := some j.tail, work := .compact c, presented := claim } })

/-- A compaction. It presents the map in increasing order of spare index and the DISCARDED flags, and writes the inactive half
in the order of its table: a blank header, one RETIRE record for each entry from slot 0 up, the carried record, the two bitmap
lines, the header; each write is presented at the DONE of the one before. Its start takes the generation plus 1; from the last
generation it fails at once. Its last DONE makes the target active with the compaction's generation, the records as tail slot,
the flags as bitmap copy and no uncertain slot, is counted, and raises JOURNAL_COMPACTED; a carried append is then answered, a
held one is written to the new tail slot, and else the journal is IDLE, with the drain check, or in REBUILD the rebuild's end.
EXHAUSTED or TIMEOUT of a write makes the journal FAILED with JOURNAL_FAILED and ends the job of a pending append FAILED, with
the drain check last (assumption 25, the model's choice); in REBUILD a TIMEOUT ends in HALTED and the others end the rebuild.
After each write the journal's next claim is presented, a held service read first, as ServiceReadAnswers says. -/
def Obligations.CompactionRuns : Prop :=
  let rebuilt (outcome : BitVec 32) (t : State) : State :=
    raise .rebuildDone none none none
      [outcome, BitVec.ofNat 32 t.lineMap.entries.length, BitVec.ofNat 32 (spareCount .discarded t),
        t.journal.generation] t
  let inService (next : State → State) (t u : State) : Prop :=
    (t.pins.pwarn = false → u = next { rebuilt 1 t with opState := .ready }) ∧
    (t.pins.pwarn = true → t.queue = [] →
      t.journal.state = .idle ∨ t.journal.state = .failed →
      u = next (raise .quietReached none none none [] { rebuilt 1 t with opState := .quiet })) ∧
    (t.pins.pwarn = true → t.queue ≠ [] → u = next { rebuilt 1 t with opState := .quiescing })
  let fails (cause : BitVec 32) (next : State → State) (t u : State) : Prop :=
    let j := t.journal
    let failed : State :=
      raise .journalFailed none none none
        [cause, match j.uncertain with | some k => BitVec.ofNat 32 k | none => BitVec.allOnes 32]
        { t with journal := { j with state := .failed, work := .none } }
    (t.opState ≠ .rebuild →
      (j.pending = none → u = next (drainCheck failed)) ∧
      (j.pending ≠ none →
        u = next (drainCheck (runHead (endFailed { failed with journal := { failed.journal with pending := none } }))))) ∧
    (t.opState = .rebuild → j.pending = none →
      (cause = 2 → u = next (rebuilt 3 { failed with opState := .halted, haltCause := .mediaTimeout })) ∧
      (cause ≠ 2 → inService next failed u))
  (∀ s : State, MapLaw s →
    (∀ e, e ∈ presentedEntries s ↔ e ∈ s.lineMap.entries) ∧
    (presentedEntries s).Pairwise (fun x y => x.spare < y.spare) ∧
    ∀ i : Spare, (discardFlags s).getLsbD i.val = true ↔ spareState s i = .discarded) ∧
  (∀ (entries : List MapEntry) (carried : Option AppendRecord),
    let writes := compactionWrites entries carried
    let n := entries.length
    let tail := n + carried.toList.length
    writes.length = tail + 4 ∧ writes[0]? = some .blankHeader ∧
    (∀ k e, entries[k]? = some e → writes[k + 1]? = some (.snapshot k e.hostLine e.spare)) ∧
    (∀ r, carried = some r → writes[n + 1]? = some (.carried n r)) ∧
    writes[tail + 1]? = some .bitmapLow ∧ writes[tail + 2]? = some .bitmapHigh ∧ writes[tail + 3]? = some .header) ∧
  (∀ (carries : Bool) (s : State),
    (s.journal.generation = BitVec.allOnes 32 →
      fails 3 id { s with journal := { s.journal with state := .compacting } } (startCompaction carries s)) ∧
    (s.journal.generation ≠ BitVec.allOnes 32 → ∃ c,
      c.generation = s.journal.generation + 1 ∧ c.carries = carries ∧ c.flags = discardFlags s ∧
      (∀ carried : Option AppendRecord,
        carried =
            (match carries, s.journal.pending with
              | true, some (.retire h n) => some (.retire h n)
              | true, some (.reretire h n o) => some (.reretire h n o)
              | _, _ => none) →
        c.todo = compactionWrites (presentedEntries s) carried ∧
          c.records = (presentedEntries s).length + carried.toList.length) ∧
      startCompaction carries s = { s with journal := { s.journal with state := .compacting, work := .compact c } })) ∧
  ∀ (h : Half) (c : Compaction) (w : CompactionWrite) (rest : List CompactionWrite) (s : State),
    s.journal.work = .compact c → s.journal.presented = some .work → s.journal.active = some h →
    s.journal.state = .compacting → c.todo = w :: rest →
    let j := s.journal
    let claim : Option Presented := if j.service = none then some .work else some .service
    let target : Half := match h with | .a => .b | .b => .a
    let base : Nat := match target with | .a => 0 | .b => 2048
    let read : State := { s with journal := { j with presented := none } }
    journalRequest s =
      some
        (match w with
          | .blankHeader => .write base zeroLine
          | .snapshot k line spare => .write (base + 3 + k) (recordLine c.generation (.retire line spare))
          | .carried k r => .write (base + 3 + k) (recordLine c.generation r)
          | .bitmapLow => .write (base + 1) (bitmapLine (c.flags.extractLsb' 0 512))
          | .bitmapHigh => .write (base + 2) (bitmapLine (c.flags.extractLsb' 512 512))
          | .header => .write base (headerLine c.generation s.straps)) ∧
    (rest ≠ [] →
      journalResult .done s =
        { s with journal := { j with work := .compact { c with todo := rest }, presented := claim } }) ∧
    (rest = [] →
      let ended := journalResult .done s
      let compacted : State :=
        raise .journalCompacted none none none [c.generation, BitVec.ofNat 32 c.records]
          { s with
            counters := { s.counters with journalCompactions := satInc s.counters.journalCompactions }
            journal :=
              { j with
                active := some target, generation := c.generation, tail := c.records, bitmap := c.flags,
                uncertain := none, work := .none, presented := none } }
      let idle (t : State) : State := { t with journal := { t.journal with state := .idle } }
      (j.pending = none →
        (s.opState ≠ .rebuild → ended = presentNext (drainCheck (idle compacted))) ∧
        (s.opState = .rebuild → inService presentNext (idle compacted) ended)) ∧
      ∀ r, j.pending = some r →
        (c.carries = false →
          ended =
              { compacted with
                journal :=
                  { compacted.journal with state := .appending, work := .append, presented := claim } } ∧
            workRequest ended = some (.write (base + 3 + c.records) (recordLine c.generation r))) ∧
        (c.carries = true →
          let cleared : State := { compacted with journal := { compacted.journal with pending := none } }
          let answered : State :=
            match r with
            | .retire _ _ => runHead (commitHead c.generation cleared)
            | .reretire _ _ _ => runHead (commitHead c.generation cleared)
            | .discard _ =>
              runHead
                (match s.queue with
                  | [] => cleared
                  | job :: _ =>
                    if 4 ≤ job.attempts then
                      endUnplaced (fun line t => raise .retireFailed (some line) none none [1] t) cleared
                    else enterPlacing cleared)
          (s.opState ≠ .rebuild → ended = presentNext (drainCheck (idle answered))) ∧
          (s.opState = .rebuild → inService presentNext (idle answered) ended))) ∧
    fails 1 presentNext read (journalResult .exhausted s) ∧ fails 2 presentNext read (journalResult .timeout s)

/-! ### The laws of the part -/

/-- Every step keeps the laws of the part that bound its tables and settings: at most 32 notices and no armed request on a
RELEASED line; at most 64 suspect entries and at most 8 jobs, no two for one host line; no two entries of the Request Table
with one tag, so at most 32, and behind an entry only WAITING entries of its host line; a passed-over count of at most 16;
every setting in its range. Each law is kept by itself, from every state that meets it. -/
def Obligations.CapacityAndTableLawsAreKept : Prop :=
  ∀ s t : State, step s = .next t →
    (NoticeLaw s → NoticeLaw t) ∧ (SuspectLaw s → SuspectLaw t) ∧ (QueueLaw s → QueueLaw t) ∧ (TableLaw s → TableLaw t) ∧
      (PassedOverLaw s → PassedOverLaw t) ∧ (SettingsLaw s → SettingsLaw t)

/-- Every step keeps the law of the Retirement Map (one entry for each IN_USE spare and no others, no host line and no spare in
two entries), the law of reservations (a spare is RESERVED only while the head job holds it in PLACING, CHECKING or RECORDING,
so at most one is), and the law of the generation; and the generation of the active half falls at no step but a power-up reset
and the effect of RESTART. The jobs' kinds, the pending append, the rebuild and the compaction in progress are held to the map,
the pool and the generation by the same laws, so that they hold from every state that meets them. -/
def Obligations.MapPoolAndGenerationLawsAreKept : Prop :=
  ∀ s t : State, step s = .next t → PoolLaw s → GenerationLaw s →
    PoolLaw t ∧ GenerationLaw t ∧
      ((∀ c rest, s.pending = c :: rest → c ≠ .restartEffect ∧ ∀ straps, c ≠ .powerUpReset straps) →
        s.journal.generation.toNat ≤ t.journal.generation.toNat)

/-- No step lowers a counter but GET_COUNTERS with the clear flag, power-up reset and the effect of RESTART. -/
def Obligations.CountersOnlyRise : Prop :=
  ∀ s t : State, step s = .next t →
    (∀ c rest, s.pending = c :: rest →
      c ≠ .getCounters 1 ∧ c ≠ .restartEffect ∧ ∀ straps, c ≠ .powerUpReset straps) →
    ∀ (k : Nat) (x y : BitVec 32), s.counters.inOrder[k]? = some x → t.counters.inOrder[k]? = some y → x.toNat ≤ y.toNat
end

