-- ==== Sys2Proof/Laws/Closure.lean ====
section
/-! SUPPORT. Sys2Proof/Laws/Closure.lean: what the shared operations can do to the state, said once. `Noticed`,
`Tracked` and `Queued` list the elementary changes that notices, the patrol step, listings, entries, locks and job requests
make, each with the guard under which it is made. `Steady P Ev` adds what the examination of a QUEUED head job does as a
whole, for a property that holds only between the changes of one such step; a property kept by them is kept by every
operation built of them, the grants included. `Shared P Ev` gives a `Steady` property from the single changes of a job, and
`Closed P Ev` adds those of the results of media operations (Laws/Owners.lean). -/

namespace Sys2Proof.Machine

/-- The tag and host line of every table entry, oldest first: what no operation on an entry changes. -/
def tableKeys (s : State) : List (Tag × Nat) := s.channel.table.map fun e => (e.tag, e.hostLine)

/-- A change of an entry that keeps the fields an admission sets (R33, R37). -/
def KeepsKey (f : Entry → Entry) : Prop :=
  ∀ e, (f e).tag = e.tag ∧ (f e).hostLine = e.hostLine ∧ (f e).request = e.request ∧ (f e).arrival = e.arrival

/-- A record of counters none of which lies below those of another record. -/
def CountersRise (a b : Counters) : Prop := List.Forall₂ (fun x y : BitVec 32 => x.toNat ≤ y.toNat) a.inOrder b.inOrder

/-- The READY entry of a line passes to HELD (R40). -/
def lockEntry (hostLine : Nat) (e : Entry) : Entry :=
  if e.hostLine = hostLine ∧ e.state = .ready then { e with state := .held } else e

/-- The HELD entry of a line becomes READY (R40, R41). -/
def unlockEntry (hostLine : Nat) (e : Entry) : Entry :=
  if e.hostLine = hostLine ∧ e.state = .held then { e with state := readyState e.request } else e

/-- `P` is kept by the elementary changes of the Notice Unit, the counters and the Patrol Unit. -/
structure Noticed (P : State → Prop) : Prop where
  patrol : ∀ {s} p, P s → P { s with patrol := p }
  passedZero : ∀ {s}, P s → P { s with media := { s.media with passedOver := 0 } }
  counters : ∀ {s} c, CountersRise s.counters c → P s → P { s with counters := c }
  alert : ∀ {s}, P s → P (alertRequest s)
  noticeEnters : ∀ {s} n, s.notices.queue.length < 32 → P s →
    P { s with notices := { s.notices with sequence := s.notices.sequence + 1, queue := s.notices.queue ++ [n] } }
  noticeDropped : ∀ {s}, P s → P { s with notices := { s.notices with sequence := s.notices.sequence + 1 } }
  pace : ∀ {s} n, P s → P { s with notices := { s.notices with pace := n } }

/-- `P` is kept by the elementary changes of the outputs, the slots, the Suspect List and the Request Table. `Ev keys tag` is
what `P` says of the entry of a tag that is not WAITING: the evidence under which the blocks change that entry. -/
structure Tracked (P : State → Prop) (Ev : List (Tag × Nat) → Tag → Prop) : Prop extends Noticed P where
  out : ∀ {s} o, P s → P { s with out := o }
  drained : ∀ {s}, s.opState = .quiescing → P s → P { s with opState := .quiet }
  slots : ∀ {s} v, P s → P { s with media := { s.media with slots := v } }
  passedRise : ∀ {s}, P s → s.media.passedOver < 16 →
    P { s with media := { s.media with passedOver := s.media.passedOver + 1 } }
  suspectJoins : ∀ {s} x, isListed s x.hostLine = false → s.suspects.length < 64 → P s →
    P { s with suspects := s.suspects ++ [x] }
  suspectReplaces : ∀ {s} v x, v ∈ s.suspects → isListed s x.hostLine = false → P s →
    P { s with suspects := s.suspects.filter (fun e => e.hostLine != v.hostLine) ++ [x] }
  suspectsChange : ∀ {s} f, (∀ x : Suspect, (f x).hostLine = x.hostLine) → P s →
    P { s with suspects := s.suspects.map f }
  suspectLeaves : ∀ {s} h, P s → P (removeSuspect h s)
  entryChanges : ∀ {s} tag f, KeepsKey f → Ev (tableKeys s) tag → P s → P (updateEntry tag f s)
  entriesLock : ∀ {s} h, P s →
    P { s with channel := { s.channel with table := s.channel.table.map (lockEntry h) } }
  entriesUnlock : ∀ {s} h, P s →
    P { s with channel := { s.channel with table := s.channel.table.map (unlockEntry h) } }
  evidence : ∀ {s e}, P s → e ∈ s.channel.table → e.state ≠ .waiting → Ev (tableKeys s) e.tag
  evidenceFirst : ∀ {s h e}, P s → s.channel.table.find? (·.hostLine == h) = some e → Ev (tableKeys s) e.tag

/-- `P` is also kept by an enqueue and by an adoption (R99, R100). -/
structure Queued (P : State → Prop) (Ev : List (Tag × Nat) → Tag → Prop) : Prop extends Tracked P Ev where
  jobJoins : ∀ {s} hostLine o data tag, s.opState = .ready → isLocked s hostLine = false → s.queue.length < 8 → P s →
    P { s with queue := s.queue ++ [newJob s hostLine o data tag] }
  adopts : ∀ {s} hostLine data tag, P s → P (adopt hostLine data tag s)

/-- `P` is also kept by what the examination of a QUEUED head job does (R101): then it is kept by all that the owners of host,
residual and patrol operations do, and by the grants. -/
structure Steady (P : State → Prop) (Ev : List (Tag × Nat) → Tag → Prop) : Prop extends Queued P Ev where
  headFails : ∀ {s j rest}, s.queue = j :: rest → j.state = .queued → P s → P (endFailed s)
  headFetches : ∀ {s j rest}, s.queue = j :: rest → j.state = .queued → P s →
    P (updateHead (fun j => { j with state := .fetching }) s)
  headPlaces : ∀ {s j rest}, s.queue = j :: rest → j.state = .queued → P s → P (enterPlacing s)

/-- `P` is kept by the elementary changes that a job's steps and endings make, each by itself: then it is `Steady`. -/
structure Shared (P : State → Prop) (Ev : List (Tag × Nat) → Tag → Prop) : Prop extends Queued P Ev where
  spares : ∀ {s} v, P s → P { s with lineMap := { s.lineMap with spares := v } }
  headChanges : ∀ {s} f, (∀ j : Job, (f j).hostLine = j.hostLine) → P s → P (updateHead f s)
  headLeaves : ∀ {s j rest}, s.queue = j :: rest → P s → P { s with queue := rest }

/-- `P` is also kept by the elementary changes that only the results of media operations make. -/
structure Closed (P : State → Prop) (Ev : List (Tag × Nat) → Tag → Prop) : Prop extends Shared P Ev where
  port : ∀ {s} p, P s → P { s with port := p }
  journal : ∀ {s} j, P s → P { s with journal := j }
  opState : ∀ {s} o, P s → P { s with opState := o }
  haltCause : ∀ {s} c, P s → P { s with haltCause := c }
  putEntry : ∀ {s} e, P s → P (putEntry e s)
  residuals : ∀ {s} r, P s → P { s with channel := { s.channel with residuals := r } }

/-- A state that has the property, with these table keys. -/
structure Good (P : State → Prop) (K : List (Tag × Nat)) (s : State) : Prop where
  prop : P s
  keys : tableKeys s = K

theorem Good.ite {P : State → Prop} {K : List (Tag × Nat)} {c : Prop} [Decidable c] {a b : State} (ha : Good P K a)
    (hb : Good P K b) : Good P K (if c then a else b) := by
  split
  · exact ha
  · exact hb

namespace Noticed

variable {P : State → Prop} {K : List (Tag × Nat)} {s : State}

/-! ### Counters -/

theorem satInc_le (n : BitVec 32) : n.toNat ≤ (satInc n).toNat := by
  unfold satInc
  split
  · exact Nat.le_refl _
  · rename_i h
    have : n.toNat ≠ 4294967295 := fun e => h (BitVec.eq_of_toNat_eq (by simpa using e))
    have := n.isLt
    rw [BitVec.toNat_add]
    simp
    omega

theorem CountersRise.refl (c : Counters) : CountersRise c c := by
  simp [CountersRise, Counters.inOrder]

/-- A counter raised by one leaves no counter lower. -/
theorem count (k : Noticed P) (h : Good P K s) {c : Counters} (hc : CountersRise s.counters c) :
    Good P K { s with counters := c } := ⟨k.counters c hc h.prop, h.keys⟩

theorem countDiscarded (k : Noticed P) (h : Good P K s) : Good P K (countDiscarded s) :=
  k.count h (by simp [CountersRise, Counters.inOrder, Noticed.satInc_le])

theorem countFailed (k : Noticed P) (h : Good P K s) : Good P K (countFailed s) :=
  k.count h (by simp [CountersRise, Counters.inOrder, Noticed.satInc_le])

theorem countSkipped (k : Noticed P) (h : Good P K s) : Good P K (countSkipped s) :=
  k.count h (by simp [CountersRise, Counters.inOrder, Noticed.satInc_le])

theorem countTimeout (k : Noticed P) (h : Good P K s) : Good P K (countTimeout s) :=
  k.count h (by simp [CountersRise, Counters.inOrder, Noticed.satInc_le])

theorem missExpiry (k : Noticed P) (h : Good P K s) : Good P K (missExpiry s) :=
  k.count h (by simp [CountersRise, Counters.inOrder, Noticed.satInc_le])

theorem countStep (k : Noticed P) (h : Good P K s) : Good P K (countStep s) :=
  k.count h (by simp [CountersRise, Counters.inOrder, Noticed.satInc_le])

theorem countDecode (k : Noticed P) (c : DecodeClass) (h : Good P K s) : Good P K (countDecode c s) := by
  cases c
  · exact h
  all_goals exact k.count h (by simp [CountersRise, Counters.inOrder, Noticed.satInc_le])

/-! ### Notices -/

theorem alertRequest (k : Noticed P) (h : Good P K s) : Good P K (alertRequest s) := by
  refine ⟨k.alert h.prop, ?_⟩
  unfold Machine.alertRequest
  split <;> exact h.keys

theorem raise (k : Noticed P) (h : Good P K s) {kind hostLine spare oldSpare values} :
    Good P K (raise kind hostLine spare oldSpare values s) := by
  unfold Machine.raise
  split
  · rename_i hlt
    have entered := Good.mk (k.noticeEnters (noticeOf s kind hostLine spare oldSpare values) hlt h.prop) h.keys
    dsimp only
    split
    · exact k.alertRequest entered
    · exact entered
  · exact k.count (s := { s with notices := { s.notices with sequence := s.notices.sequence + 1 } })
      ⟨k.noticeDropped h.prop, h.keys⟩ (by simp [CountersRise, Counters.inOrder, Noticed.satInc_le])

/-! ### The Patrol Unit -/

theorem patrolTo (k : Noticed P) (p : Patrol) (h : Good P K s) : Good P K { s with patrol := p } :=
  ⟨k.patrol p h.prop, h.keys⟩

theorem zeroPassedOver (k : Noticed P) (h : Good P K s) :
    Good P K { s with media := { s.media with passedOver := 0 } } := ⟨k.passedZero h.prop, h.keys⟩

theorem sweepEndTrigger (k : Noticed P) (h : Good P K s) : Good P K (sweepEndTrigger s) := by
  unfold Machine.sweepEndTrigger
  dsimp only
  split
  · exact ⟨k.pace 0 (k.alertRequest h).prop, (k.alertRequest h).keys⟩
  · exact ⟨k.pace 0 h.prop, h.keys⟩

theorem sweepEnd (k : Noticed P) (h : Good P K s) : Good P K (sweepEnd s) :=
  k.patrolTo _ (k.sweepEndTrigger (k.patrolTo _ (k.raise (k.patrolTo _ h))))

theorem advanceCursor (k : Noticed P) (h : Good P K s) : Good P K (advanceCursor s) := by
  unfold Machine.advanceCursor
  exact Good.ite (k.sweepEnd (k.patrolTo _ h)) (k.patrolTo _ h)

theorem endStep (k : Noticed P) (h : Good P K s) : Good P K (endStep s) := by
  unfold Machine.endStep
  split
  · exact h
  · dsimp only
    split
    · exact k.advanceCursor (k.patrolTo _ h)
    · exact k.patrolTo _ h

theorem tallySkipped (k : Noticed P) (h : Good P K s) : Good P K (tallySkipped s) := k.patrolTo _ h

theorem skipStep (k : Noticed P) (h : Good P K s) : Good P K (skipStep s) := by
  unfold Machine.skipStep
  split
  · exact h
  · split
    · exact k.endStep (k.tallySkipped (k.countSkipped h))
    · exact k.endStep (k.countSkipped h)

theorem withdrawPatrol (k : Noticed P) (h : Good P K s) : Good P K (withdrawPatrol s) :=
  k.skipStep (k.zeroPassedOver h)

theorem markStep (k : Noticed P) (h : Good P K s) : Good P K (markStep s) := by
  unfold Machine.markStep
  split
  · exact k.patrolTo _ h
  · split
    · exact k.patrolTo _ h
    · exact k.withdrawPatrol h
  · exact h

theorem patrolSeesWrite (k : Noticed P) (hostLine : Nat) (h : Good P K s) : Good P K (patrolSeesWrite hostLine s) := by
  unfold Machine.patrolSeesWrite
  split
  · split
    · exact k.markStep h
    · exact h
  · exact h

theorem patrolSeesLock (k : Noticed P) (hostLine : Nat) (h : Good P K s) : Good P K (patrolSeesLock hostLine s) := by
  unfold Machine.patrolSeesLock
  split
  · split
    · split
      · exact k.withdrawPatrol h
      · exact k.markStep h
    · exact h
  · exact h

theorem patrolSeesQuiesce (k : Noticed P) (h : Good P K s) : Good P K (patrolSeesQuiesce s) := by
  unfold Machine.patrolSeesQuiesce
  split
  · split
    · exact h
    · exact k.withdrawPatrol h
  · exact h

end Noticed

/-! ### Entries, listings, locks and the issue of operations -/

namespace Tracked

variable {P : State → Prop} {Ev : List (Tag × Nat) → Tag → Prop} {K : List (Tag × Nat)} {s : State}

theorem setSlot (k : Tracked P Ev) (id : SlotId) (slot : Slot) (h : Good P K s) : Good P K (setSlot id slot s) :=
  ⟨k.slots _ h.prop, h.keys⟩

theorem emitMedia (k : Tracked P Ev) (op : MediaOp) (h : Good P K s) : Good P K (emitMedia op s) :=
  ⟨k.out _ h.prop, h.keys⟩

theorem emitCompletion (k : Tracked P Ev) (c : Completion) (h : Good P K s) : Good P K (emitCompletion c s) :=
  ⟨k.out _ h.prop, h.keys⟩

theorem outTo (k : Tracked P Ev) (o : Outputs) (h : Good P K s) : Good P K { s with out := o } :=
  ⟨k.out o h.prop, h.keys⟩

theorem keys_updateEntry (tag : Tag) (f : Entry → Entry) (hf : KeepsKey f) (s : State) :
    tableKeys (updateEntry tag f s) = tableKeys s := by
  simp only [tableKeys, updateEntry, List.map_map]
  refine List.map_congr_left fun e _ => ?_
  simp only [Function.comp]
  split
  · rw [(hf e).1, (hf e).2.1]
  · rfl

theorem updateEntry (k : Tracked P Ev) (tag : Tag) (f : Entry → Entry) (hf : KeepsKey f) (hv : Ev K tag)
    (h : Good P K s) : Good P K (updateEntry tag f s) :=
  ⟨k.entryChanges tag f hf (h.keys ▸ hv) h.prop, (keys_updateEntry tag f hf s).trans h.keys⟩

theorem setEntryState (k : Tracked P Ev) (tag : Tag) (st : EntryState) (hv : Ev K tag) (h : Good P K s) :
    Good P K (setEntryState tag st s) := k.updateEntry tag _ (fun _ => ⟨rfl, rfl, rfl, rfl⟩) hv h

/-- An entry of the table that is not WAITING brings its evidence. -/
theorem evidenceOf (k : Tracked P Ev) (h : Good P K s) {e : Entry} (he : e ∈ s.channel.table) (hw : e.state ≠ .waiting) :
    Ev K e.tag := h.keys ▸ k.evidence h.prop he hw

theorem reexamine (k : Tracked P Ev) (hostLine : Nat) (h : Good P K s) : Good P K (reexamine hostLine s) := by
  unfold Machine.reexamine
  split
  · rename_i e he
    split
    · exact k.setEntryState _ _ (h.keys ▸ k.evidenceFirst h.prop he) h
    · exact h
  · exact h

/-- A change that leaves WAITING entries alone brings its own evidence. -/
theorem updateActive (k : Tracked P Ev) (tag : Tag) (f : Entry → Entry) (hf : KeepsKey f)
    (hw : ∀ e : Entry, e.state = .waiting → f e = e) (h : Good P K s) : Good P K (Machine.updateEntry tag f s) := by
  by_cases hx : ∃ e ∈ s.channel.table, e.tag = tag ∧ e.state ≠ .waiting
  · obtain ⟨e, he, rfl, hs⟩ := hx
    exact k.updateEntry _ f hf (k.evidenceOf h he hs) h
  · have same : s.channel.table.map (fun e => if e.tag = tag then f e else e) = s.channel.table := by
      conv => rhs; rw [← List.map_id s.channel.table]
      refine List.map_congr_left fun e he => ?_
      split
      · rename_i ht
        exact hw e (Classical.byContradiction fun hs => hx ⟨e, he, ht, hs⟩)
      · rfl
    have : Machine.updateEntry tag f s = s := by rw [Machine.updateEntry, same]
    rw [this]
    exact h

theorem removeSuspect (k : Tracked P Ev) (hostLine : Nat) (h : Good P K s) : Good P K (removeSuspect hostLine s) :=
  ⟨k.suspectLeaves hostLine h.prop, h.keys⟩

theorem suspectsTo (k : Tracked P Ev) (f : Suspect → Suspect) (hf : ∀ x, (f x).hostLine = x.hostLine) (h : Good P K s) :
    Good P K { s with suspects := s.suspects.map f } := ⟨k.suspectsChange f hf h.prop, h.keys⟩

theorem deferSuspect (k : Tracked P Ev) (hostLine : Nat) (h : Good P K s) : Good P K (deferSuspect hostLine s) :=
  k.suspectsTo _ (fun x => by split <;> rfl) h

/-- A notice is raised whatever the Suspect List holds, and leaves it as it is. -/
theorem raise_suspects_comm {kind hostLine spare oldSpare values} (l : List Suspect) :
    Machine.raise kind hostLine spare oldSpare values { s with suspects := l }
      = { Machine.raise kind hostLine spare oldSpare values s with suspects := l } := by
  unfold Machine.raise Machine.alertRequest
  dsimp only
  split
  · split
    · split <;> rfl
    · rfl
  · rfl

/-- A line is listed when an entry of the list names it (R77). -/
theorem isListed_eq_any (s : State) (hostLine : Nat) : isListed s hostLine = s.suspects.any (·.hostLine == hostLine) := by
  rw [isListed, suspectOf, List.isSome_find?]

theorem listSuspect (k : Tracked P Ev) (hostLine : Nat) (reason : Reason) (o : Origin) (h : Good P K s) :
    Good P K (listSuspect hostLine reason o s) := by
  unfold Machine.listSuspect
  split
  · exact k.suspectsTo _ (fun x => by split <;> rfl) h
  · rename_i hl
    have hl : isListed s hostLine = false := by simpa using hl
    split
    · rename_i hlt
      exact ⟨k.suspectJoins (newSuspect s hostLine reason o) hl hlt h.prop, h.keys⟩
    · split
      · rename_i v hv
        have replaced := Good.mk
          (k.suspectReplaces v (newSuspect s hostLine reason o) (List.mem_of_find?_eq_some hv) hl h.prop) h.keys
        have told := k.raise replaced (kind := .suspectEvicted) (hostLine := some v.hostLine) (spare := none)
          (oldSpare := none) (values := [])
        have same := raise_suspects_comm (s := s) (kind := .suspectEvicted) (hostLine := some v.hostLine) (spare := none)
          (oldSpare := none) (values := [])
        rw [same] at told
        have removed : raiseSuspectEvicted v.hostLine (Machine.removeSuspect v.hostLine s) = _ :=
          same (s.suspects.filter fun e => e.hostLine != v.hostLine)
        dsimp only
        rw [removed]
        exact told
      · exact k.count (s := raiseSuspectOverflow hostLine s) (k.raise h)
          (by simp [CountersRise, Counters.inOrder, Noticed.satInc_le])

theorem listDataLost (k : Tracked P Ev) (hostLine : Nat) (a b : Origin) (h : Good P K s) :
    Good P K (listDataLost hostLine a b s) := k.listSuspect _ _ _ (k.raise h)

theorem lockEntry_keepsKey (hostLine : Nat) : KeepsKey (lockEntry hostLine) := fun e => by
  unfold lockEntry
  split <;> exact ⟨rfl, rfl, rfl, rfl⟩

theorem unlockEntry_keepsKey (hostLine : Nat) : KeepsKey (unlockEntry hostLine) := fun e => by
  unfold unlockEntry
  split <;> exact ⟨rfl, rfl, rfl, rfl⟩

theorem keys_map (f : Entry → Entry) (hf : KeepsKey f) (s : State) :
    tableKeys { s with channel := { s.channel with table := s.channel.table.map f } } = tableKeys s := by
  simp only [tableKeys, List.map_map]
  refine List.map_congr_left fun e _ => ?_
  simp only [Function.comp]
  rw [(hf e).1, (hf e).2.1]

theorem lockTaken (k : Tracked P Ev) (hostLine : Nat) (h : Good P K s) : Good P K (lockTaken hostLine s) :=
  k.patrolSeesLock hostLine
    ⟨k.entriesLock hostLine h.prop, (keys_map _ (lockEntry_keepsKey hostLine) s).trans h.keys⟩

theorem lockReleased (k : Tracked P Ev) (hostLine : Nat) (h : Good P K s) : Good P K (lockReleased hostLine s) :=
  ⟨k.entriesUnlock hostLine h.prop, (keys_map _ (unlockEntry_keepsKey hostLine) s).trans h.keys⟩

theorem drainCheck (k : Tracked P Ev) (h : Good P K s) : Good P K (drainCheck s) := by
  unfold Machine.drainCheck
  split
  · rename_i hd
    exact k.raise ⟨k.drained hd.1 h.prop, h.keys⟩
  · exact h

theorem handedBack_keepsKey (data : Option LineData) : KeepsKey (handedBack data) := fun e => by
  unfold handedBack
  split <;> exact ⟨rfl, rfl, rfl, rfl⟩

theorem handBack (k : Tracked P Ev) (j : Job) (h : Good P K s) : Good P K (handBack j s) := by
  unfold Machine.handBack
  split
  · refine k.patrolSeesWrite _ (k.updateActive _ _ (handedBack_keepsKey _) (fun e he => ?_) h)
    simp [handedBack, he]
  · exact h

theorem completeOriginator (k : Tracked P Ev) (j : Job) (h : Good P K s) : Good P K (completeOriginator j s) := by
  unfold Machine.completeOriginator
  split
  · refine k.updateActive _ _ (fun e => ?_) (fun e he => ?_) h
    · split <;> exact ⟨rfl, rfl, rfl, rfl⟩
    · simp [he]
  · exact h

theorem issueRead (k : Tracked P Ev) (id : SlotId) (line : Nat) (owner : Owner) (h : Good P K s) :
    Good P K (issueRead id line owner s) := k.emitMedia _ (k.setSlot _ _ h)

theorem issueWrite (k : Tracked P Ev) (id : SlotId) (line : Nat) (data : LineData) (owner : Owner) (h : Good P K s) :
    Good P K (issueWrite id line data owner s) := k.emitMedia _ (k.setSlot _ _ h)

theorem issue (k : Tracked P Ev) (id : SlotId) (r : MediaRequest) (owner : Owner) (h : Good P K s) :
    Good P K (issue id r owner s) := by
  cases r with
  | read line => exact k.issueRead _ _ _ h
  | write line data => exact k.issueWrite _ _ _ _ h

theorem beginWrite (k : Tracked P Ev) (id : SlotId) (e : Entry) (ctx : Context) (hv : Ev K e.tag) (h : Good P K s) :
    Good P K (beginWrite id e ctx s) := k.issueWrite _ _ _ _ (k.setEntryState _ _ hv h)

theorem patrolGrant (k : Tracked P Ev) (id : SlotId) (h : Good P K s) : Good P K (patrolGrant id s) := by
  unfold Machine.patrolGrant
  have zeroed := k.zeroPassedOver h
  dsimp only
  split
  · split
    · exact k.issueRead _ _ _ (k.patrolTo _ zeroed)
    · exact k.issueWrite _ _ _ _ (k.patrolTo _ zeroed)
    · exact zeroed
  · exact zeroed

/-- A host claim wins only while no patrol claim stands at the passed-over limit (R62, R63), and its entry is READY or
EXECUTING. -/
theorem winner_host {e : Entry} (h : winner s = some (.host e)) :
    (patrolClaims s = true → s.media.passedOver < 16) ∧ e ∈ s.channel.table ∧ e.state ≠ .waiting := by
  unfold winner at h
  split at h
  · simp at h
  · split at h
    · simp at h
    · split at h
      · simp at h
      · rename_i hg
        split at h
        · rename_i e' he
          cases h
          refine ⟨fun hc => Nat.lt_of_not_le fun hle => hg ⟨hc, hle⟩, List.mem_of_find?_eq_some he, fun hw => ?_⟩
          have := List.find?_some he
          simp [entryClaims, hw] at this
        · split at h <;> simp at h

end Tracked

/-! ### Requests for a job -/

namespace Queued

variable {P : State → Prop} {Ev : List (Tag × Nat) → Tag → Prop} {K : List (Tag × Nat)} {s : State}

theorem enqueue (k : Queued P Ev) (hostLine : Nat) (o : Origin) (data : Option LineData) (tag : Option Tag)
    (ho : s.opState = .ready) (hl : isLocked s hostLine = false) (hq : s.queue.length < 8) (h : Good P K s) :
    Good P K (enqueue hostLine o data tag s) :=
  k.lockTaken hostLine ⟨k.jobJoins hostLine o data tag ho hl hq h.prop, h.keys⟩

theorem adopt (k : Queued P Ev) (hostLine : Nat) (data : LineData) (tag : Option Tag) (h : Good P K s) :
    Good P K (adopt hostLine data tag s) :=
  ⟨k.adopts hostLine data tag h.prop, h.keys⟩

theorem isLocked_of_jobOf_none {hostLine : Nat} (h : jobOf s hostLine = none) : isLocked s hostLine = false := by
  rw [isLocked, ← List.isSome_find?, show s.queue.find? (·.hostLine == hostLine) = none from h]
  rfl

theorem bufferRequest (k : Queued P Ev) (hostLine : Nat) (o : Origin) (data : LineData) (tag : Option Tag)
    (h : Good P K s) : Good P K (bufferRequest hostLine o data tag s).2 := by
  unfold Machine.bufferRequest
  split
  · exact h
  · rename_i ho
    split
    · exact h
    · split
      · split
        · exact k.adopt _ _ _ h
        · exact h
      · rename_i hj
        split
        · exact h
        · rename_i hq
          exact k.enqueue _ _ _ _ (Classical.not_not.mp ho) (isLocked_of_jobOf_none hj) (Nat.lt_of_not_le hq) h

theorem fetchRequest (k : Queued P Ev) (hostLine : Nat) (o : Origin) (h : Good P K s) :
    Good P K (fetchRequest hostLine o s).2 := by
  unfold Machine.fetchRequest
  split
  · exact h
  · rename_i ho
    split
    · exact h
    · split
      · exact h
      · rename_i hl
        split
        · exact h
        · rename_i hq
          exact k.enqueue _ _ _ _ (Classical.not_not.mp ho) (by simpa using hl) (Nat.lt_of_not_le hq) h

theorem promote (k : Queued P Ev) (h : Good P K s) : Good P K (promote s) := by
  unfold Machine.promote
  split
  · split
    · exact k.fetchRequest _ _ h
    · exact h
  · exact h

end Queued

/-! ### The steps and endings of a job, of elementary changes -/

namespace Shared

variable {P : State → Prop} {Ev : List (Tag × Nat) → Tag → Prop} {K : List (Tag × Nat)} {s : State}

theorem setSpare (k : Shared P Ev) (i : Spare) (st : SpareState) (h : Good P K s) : Good P K (setSpare i st s) :=
  ⟨k.spares _ h.prop, h.keys⟩

theorem headTo (k : Shared P Ev) (f : Job → Job) (hf : ∀ j, (f j).hostLine = j.hostLine) (h : Good P K s) :
    Good P K (updateHead f s) := by
  refine ⟨k.headChanges f hf h.prop, ?_⟩
  unfold updateHead
  split <;> exact h.keys

theorem dequeue (k : Shared P Ev) (h : Good P K s) : Good P K (dequeue s) := by
  unfold Machine.dequeue
  split
  · exact h
  · rename_i hq
    exact k.lockReleased _ ⟨k.headLeaves hq h.prop, h.keys⟩

theorem endUnplaced (k : Shared P Ev) (notice : Nat → State → State)
    (hn : ∀ {t hostLine}, Good P K t → Good P K (notice hostLine t)) (h : Good P K s) :
    Good P K (endUnplaced notice s) := by
  unfold Machine.endUnplaced
  split
  · exact h
  · exact k.drainCheck (k.promote (k.dequeue (k.handBack _ (k.countFailed (k.listSuspect _ _ _ (hn h))))))

theorem endLost (k : Shared P Ev) (h : Good P K s) : Good P K (endLost s) := by
  unfold Machine.endLost
  split
  · exact h
  · exact k.drainCheck (k.promote (k.dequeue (k.countFailed (k.listDataLost _ _ _ h))))

theorem releaseSpare (k : Shared P Ev) (j : Job) (h : Good P K s) : Good P K (releaseSpare j s) := by
  unfold Machine.releaseSpare
  split
  · exact k.setSpare _ _ h
  · exact h

theorem endFailed (k : Shared P Ev) (h : Good P K s) : Good P K (endFailed s) := by
  unfold Machine.endFailed
  split
  · exact h
  · exact k.drainCheck (k.dequeue (k.handBack _ (k.countFailed (k.listSuspect _ _ _ (k.raise (k.releaseSpare _ h))))))

theorem enterPlacing (k : Shared P Ev) (h : Good P K s) : Good P K (enterPlacing s) := by
  unfold Machine.enterPlacing
  split
  · exact h
  · have reserved := k.headTo (fun j => { j with state := .placing, reserved := some ‹Spare›, attempts := j.attempts + 1 })
      (fun _ => rfl) (k.setSpare ‹Spare› .reserved h)
    exact Good.ite (k.raise reserved) reserved
  · exact k.endUnplaced _ (fun t => k.raise t) h

end Shared

/-! ### What no step or ending of a job changes -/

/-- A property that every state has is kept by every change. -/
theorem Shared.always : Shared (fun _ => True) (fun _ _ => True) where
  patrol _ _ := trivial
  passedZero _ := trivial
  counters _ _ _ := trivial
  alert _ := trivial
  noticeEnters _ _ _ := trivial
  noticeDropped _ := trivial
  pace _ _ := trivial
  out _ _ := trivial
  drained _ _ := trivial
  slots _ _ := trivial
  passedRise _ _ := trivial
  suspectJoins _ _ _ _ := trivial
  suspectReplaces _ _ _ _ _ := trivial
  suspectsChange _ _ _ := trivial
  suspectLeaves _ _ := trivial
  entryChanges _ _ _ _ _ := trivial
  entriesLock _ _ := trivial
  entriesUnlock _ _ := trivial
  evidence _ _ _ := trivial
  evidenceFirst _ _ := trivial
  jobJoins _ _ _ _ _ _ _ _ := trivial
  adopts _ _ _ _ := trivial
  spares _ _ := trivial
  headChanges _ _ _ := trivial
  headLeaves _ _ := trivial

theorem keys_endFailed (s : State) : tableKeys (endFailed s) = tableKeys s := (Shared.always.endFailed ⟨trivial, rfl⟩).keys

theorem keys_enterPlacing (s : State) : tableKeys (enterPlacing s) = tableKeys s :=
  (Shared.always.enterPlacing ⟨trivial, rfl⟩).keys

theorem keys_updateHead (f : Job → Job) (s : State) : tableKeys (updateHead f s) = tableKeys s := by
  unfold updateHead
  split <;> rfl

/-! ### Examination of the head job, host execution and grants -/

namespace Steady

variable {P : State → Prop} {Ev : List (Tag × Nat) → Tag → Prop} {K : List (Tag × Nat)} {s : State}

theorem examineHead (k : Steady P Ev) (n : Nat) : ∀ {s}, Good P K s → Good P K (examineHead n s) := by
  induction n with
  | zero => exact fun h => h
  | succ n ih =>
    intro s h
    unfold Machine.examineHead
    split
    · exact h
    · rename_i hq
      split
      · exact h
      · rename_i hs
        have hs := Classical.not_not.mp hs
        split
        · exact ih ⟨k.headFails hq hs h.prop, (keys_endFailed _).trans h.keys⟩
        · split
          · exact h
          · split
            · exact ⟨k.headFetches hq hs h.prop, (keys_updateHead _ _).trans h.keys⟩
            · exact ih ⟨k.headPlaces hq hs h.prop, (keys_enterPlacing _).trans h.keys⟩

theorem runHead (k : Steady P Ev) (h : Good P K s) : Good P K (runHead s) := k.examineHead _ h

theorem examineLine (k : Steady P Ev) (hostLine : Nat) (h : Good P K s) : Good P K (examineLine hostLine s) := by
  unfold Machine.examineLine
  split
  · exact Good.ite (k.runHead h) h
  · exact h

theorem complete (k : Steady P Ev) (e : Entry) (ctx : Context) (status : Status) (data : Option LineData) (hv : Ev K e.tag)
    (h : Good P K s) : Good P K (complete e ctx status data s) := k.examineLine _ (k.setEntryState _ _ hv h)

theorem passToRetiring (k : Steady P Ev) (e : Entry) (ctx : Context) (hv : Ev K e.tag) (h : Good P K s) :
    Good P K (passToRetiring e ctx s) := k.examineLine _ (k.setEntryState _ _ hv h)

theorem firstWriteGrant (k : Steady P Ev) (id : SlotId) (e : Entry) (data : LineData) (hv : Ev K e.tag)
    (h : Good P K s) : Good P K (firstWriteGrant id e data s) := by
  unfold Machine.firstWriteGrant
  have started := k.patrolSeesWrite e.hostLine
    (k.setEntryState e.tag (.executing (newContext s e .write (some data))) hv h)
  have asked := k.bufferRequest e.hostLine .hostWrite data (some e.tag) started
  dsimp only
  split
  · split
    all_goals
      rename_i heq
      rw [heq] at asked
    · exact k.beginWrite _ _ _ hv asked
    · exact k.passToRetiring _ _ hv asked
  · exact k.beginWrite _ _ _ hv started

theorem firstGrant (k : Steady P Ev) (id : SlotId) (e : Entry) (hv : Ev K e.tag) (h : Good P K s) :
    Good P K (firstGrant id e s) := by
  unfold Machine.firstGrant
  split
  · exact k.issueRead _ _ _ (k.setEntryState _ _ hv h)
  · exact k.firstWriteGrant _ _ _ hv h
  · exact Good.ite (k.firstWriteGrant _ _ _ hv h)
      (k.issueRead _ _ _ (k.patrolSeesWrite _ (k.setEntryState _ _ hv h)))

theorem laterGrant (k : Steady P Ev) (id : SlotId) (e : Entry) (ctx : Context) (hv : Ev K e.tag) (h : Good P K s) :
    Good P K (laterGrant id e ctx s) := by
  unfold Machine.laterGrant
  split
  · exact k.issueRead _ _ _ h
  · exact k.beginWrite _ _ _ hv h

theorem hostGrant (k : Steady P Ev) (id : SlotId) (e : Entry) (hv : Ev K e.tag)
    (hp : patrolClaims s = true → s.media.passedOver < 16) (h : Good P K s) : Good P K (hostGrant id e s) := by
  unfold Machine.hostGrant
  have counted : Good P K (countPassedOver s) := by
    unfold countPassedOver
    split
    · rename_i hc
      exact ⟨k.passedRise h.prop (hp hc), h.keys⟩
    · exact h
  dsimp only
  split
  · exact k.firstGrant _ _ hv counted
  · exact k.laterGrant _ _ _ hv counted
  · exact counted

theorem grant (k : Steady P Ev) (id : SlotId) (w : Winner) (hw : winner s = some w) (h : Good P K s) :
    Good P K (grant id w s) := by
  cases w with
  | journal r => exact k.issue _ _ _ h
  | retirement r => exact k.issue _ _ _ h
  | patrol => exact k.patrolGrant _ h
  | host e =>
    obtain ⟨hp, he, hs⟩ := Tracked.winner_host hw
    exact k.hostGrant _ _ (k.evidenceOf h he hs) hp h

theorem grantLoop (k : Steady P Ev) (n : Nat) : ∀ {s}, Good P K s → Good P K (grantLoop n s) := by
  induction n with
  | zero => exact fun h => h
  | succ n ih =>
    intro s h
    unfold Machine.grantLoop
    split
    · rename_i hw
      exact ih (k.grant _ _ hw h)
    · exact h

/-- The grants at the end of an event. -/
theorem settle (k : Steady P Ev) (h : Good P K s) : Good P K (settle s) := k.grantLoop _ h

end Steady

/-! ### From the elementary changes to all of them -/

namespace Shared

variable {P : State → Prop} {Ev : List (Tag × Nat) → Tag → Prop} {K : List (Tag × Nat)} {s : State}

theorem steady (k : Shared P Ev) : Steady P Ev where
  toQueued := k.toQueued
  headFails _ _ h := (k.endFailed ⟨h, rfl⟩).prop
  headFetches _ _ h := k.headChanges _ (fun _ => rfl) h
  headPlaces _ _ h := (k.enterPlacing ⟨h, rfl⟩).prop

theorem runHead (k : Shared P Ev) (h : Good P K s) : Good P K (runHead s) := k.steady.runHead h

theorem settle (k : Shared P Ev) (h : Good P K s) : Good P K (settle s) := k.steady.settle h

end Shared
end Sys2Proof.Machine
end

