-- ==== Sys2Proof/Laws/Codes.lean ====
section
/-! SUPPORT. Sys2Proof/Laws/Codes.lean: what the type of the symbol code gives for every code of R20 and R22: the check bytes are
linear, and two valid interleaves that differ in five symbols or fewer are one. -/

namespace Sys2Proof.Machine

/-- The number of positions at which two interleaves differ. -/
def interleaveDistance (u v : Interleave) : Nat := ((List.finRange 21).filter fun p => u[p.val] != v[p.val]).length

/-- One bit of the exclusive-or of two lists of bytes. -/
theorem zipXor_getLsbD (a b : List Byte) (h : a.length = b.length) (k n : Nat) :
    ((List.zipWith (· ^^^ ·) a b)[k]?.getD 0).getLsbD n = ((a[k]?.getD 0).getLsbD n ^^ (b[k]?.getD 0).getLsbD n) := by
  rw [List.getElem?_zipWith]
  by_cases hk : k < a.length
  · simp [List.getElem?_eq_getElem hk, List.getElem?_eq_getElem (h ▸ hk)]
  · simp [List.getElem?_eq_none (by omega : a.length ≤ k), List.getElem?_eq_none (by omega : b.length ≤ k)]

/-- The check bits are linear in the data bytes (R20). -/
theorem rowSum_xor (row : Nat → BitVec 40) (a b : List Byte) (h : a.length = b.length) :
    rowSum row (List.zipWith (· ^^^ ·) a b) = rowSum row a ^^^ rowSum row b := by
  unfold rowSum
  have step : ∀ (l : List Nat) (x y : BitVec 40),
      l.foldl (fun acc k => if ((List.zipWith (· ^^^ ·) a b)[k / 8]?.getD 0).getLsbD (k % 8) then acc ^^^ row k else acc)
          (x ^^^ y) =
        l.foldl (fun acc k => if (a[k / 8]?.getD 0).getLsbD (k % 8) then acc ^^^ row k else acc) x ^^^
          l.foldl (fun acc k => if (b[k / 8]?.getD 0).getLsbD (k % 8) then acc ^^^ row k else acc) y := by
    intro l
    induction l with
    | nil => intro x y; rfl
    | cons k l ih =>
      intro x y
      simp only [List.foldl_cons]
      rw [← ih, zipXor_getLsbD a b h]
      congr 1
      rcases (a[k / 8]?.getD 0).getLsbD (k % 8) with _ | _ <;> rcases (b[k / 8]?.getD 0).getLsbD (k % 8) with _ | _
      · simp
      · simp [BitVec.xor_assoc]
      · simpa using (by ac_rfl : x ^^^ y ^^^ row k = x ^^^ row k ^^^ y)
      · have : x ^^^ row k ^^^ (y ^^^ row k) = x ^^^ y ^^^ (row k ^^^ row k) := by ac_rfl
        simp [this]
  have := step (List.range 128) 0 0
  simpa using this

/-- The check bytes of an exclusive-or. -/
theorem checkSymbols_xor (c d : BitVec 40) :
    checkSymbols (c ^^^ d) = List.zipWith (· ^^^ ·) (checkSymbols c) (checkSymbols d) := by
  simp only [checkSymbols, List.zipWith_map, List.zipWith_self]
  refine List.map_congr_left fun k _ => ?_
  simp only [checkByte, BitVec.extractLsb'_xor]

/-- The weight of an exclusive-or is the number of places at which two lists of bytes differ. -/
theorem symbolWeight_zipXor (a b : List Byte) :
    symbolWeight (List.zipWith (· ^^^ ·) a b) = (List.zip a b).countP fun x => x.1 != x.2 := by
  unfold symbolWeight
  induction a generalizing b with
  | nil => rfl
  | cons x a ih =>
    cases b with
    | nil => rfl
    | cons y b =>
      simp only [List.zipWith_cons_cons, List.zip_cons_cons, List.countP_cons, ih]
      congr 1
      have : (x ^^^ y != 0) = (x != y) := by
        rw [Bool.eq_iff_iff]; simp [BitVec.xor_eq_zero_iff]
      rw [this]

/-- The distance of two interleaves, as the places at which their lists differ. -/
theorem interleaveDistance_eq (u v : Interleave) :
    interleaveDistance u v = (List.zip u.toList v.toList).countP fun x => x.1 != x.2 := by
  have e : List.zip u.toList v.toList = (List.finRange 21).map fun p => (u[p.val], v[p.val]) := by
    apply List.ext_getElem
    · simp
    · intro n h1 h2
      simp
  rw [e, List.countP_map, interleaveDistance, ← List.countP_eq_length_filter]
  rfl

/-- Two valid interleaves that differ in five symbols or fewer are one (R22). -/
theorem valid_separated {i : Nat} {u v : Interleave} (hu : isValid i u = true) (hv : isValid i v = true)
    (h : interleaveDistance u v ≤ 5) : u = v := by
  have cu : u.toList.drop 16 = checkSymbols (checkBits i (u.toList.take 16)) := by simpa [isValid] using hu
  have cv : v.toList.drop 16 = checkSymbols (checkBits i (v.toList.take 16)) := by simpa [isValid] using hv
  by_cases same : u.toList.take 16 = v.toList.take 16
  · have : u.toList = v.toList := by
      rw [← List.take_append_drop 16 u.toList, ← List.take_append_drop 16 v.toList, cu, cv, same]
    exact Vector.toList_inj.mp this
  · exfalso
    let data := List.zipWith (· ^^^ ·) (u.toList.take 16) (v.toList.take 16)
    have len : data.length = 16 := by simp [data]
    have some_nonzero : ∃ b ∈ data, b ≠ 0 := by
      by_contra none
      push Not at none
      apply same
      apply List.ext_getElem
      · simp
      · intro n h1 h2
        have := none (data[n]'(by simp [data] at h1 ⊢; omega)) (List.getElem_mem _)
        simpa [data, BitVec.xor_eq_zero_iff] using this
    have far := (interleaveCode i).separates data len some_nonzero
    rw [rowSum_xor _ _ _ (by simp), checkSymbols_xor] at far
    have c1 : checkSymbols (rowSum (interleaveCode i).row (u.toList.take 16)) = u.toList.drop 16 := cu.symm
    have c2 : checkSymbols (rowSum (interleaveCode i).row (v.toList.take 16)) = v.toList.drop 16 := cv.symm
    rw [c1, c2, symbolWeight_zipXor, symbolWeight_zipXor, ← List.countP_append,
      ← List.zip_append (by simp), List.take_append_drop, List.take_append_drop, ← interleaveDistance_eq] at far
    omega

/-- The distance obeys the triangle inequality. -/
theorem interleaveDistance_triangle (u v w : Interleave) :
    interleaveDistance u w ≤ interleaveDistance u v + interleaveDistance v w := by
  unfold interleaveDistance
  generalize List.finRange 21 = l
  induction l with
  | nil => simp
  | cons p l ih =>
    simp only [List.filter_cons]
    by_cases a : u[p.val] = v[p.val] <;> by_cases b : v[p.val] = w[p.val] <;> by_cases c : u[p.val] = w[p.val] <;>
      simp_all <;> omega

/-- The distance is symmetric. -/
theorem interleaveDistance_comm (u v : Interleave) : interleaveDistance u v = interleaveDistance v u := by
  unfold interleaveDistance
  simp only [bne_comm]

/-- Of two valid interleaves within five symbols of a word, counted together, there is one alone: what R22's corrections need. -/
theorem valid_unique {i : Nat} {u w v : Interleave} (hu : isValid i u = true) (hw : isValid i w = true)
    (h : interleaveDistance u v + interleaveDistance w v ≤ 5) : u = w :=
  valid_separated hu hw (Nat.le_trans (interleaveDistance_triangle u v w) (by rw [interleaveDistance_comm v w]; exact h))

end Sys2Proof.Machine
end

