-- ==== Sys2Proof/Laws/Owners.lean ====
section
/-! SUPPORT. Sys2Proof/Laws/Owners.lean: what each owner of a media operation does with its result (chapters 4 to 9).
The host's, the residual operations' and the patrol's results keep a `Steady` property; the journal's and the head job's keep
one closed under the elementary changes. -/

namespace Sys2Proof.Machine

namespace Steady

variable {P : State → Prop} {Ev : List (Tag × Nat) → Tag → Prop} {K : List (Tag × Nat)} {s : State}

/-! ### The Health Tracker's actions -/

theorem softLimitRequest (k : Steady P Ev) (hostLine : Nat) (o : Origin) (h : Good P K s) :
    Good P K (softLimitRequest hostLine o s) := by
  unfold Machine.softLimitRequest
  have asked := k.fetchRequest hostLine o h
  split
  · split
    · split
      all_goals
        rename_i heq
        rw [heq] at asked
      · exact k.examineLine _ asked
      · exact k.deferSuspect _ asked
      · exact asked
    · exact h
  · exact h

theorem softAction (k : Steady P Ev) (hostLine : Nat) (o : Origin) (h : Good P K s) : Good P K (softAction hostLine o s) :=
  Good.ite (k.softLimitRequest _ _ (k.listSuspect _ _ _ h)) h

theorem listTaken (k : Steady P Ev) (hostLine : Nat) (o : Origin) (h : Good P K s) : Good P K (listTaken hostLine o s) :=
  Good.ite (k.listSuspect _ _ _ h) h

theorem heavyWithData (k : Steady P Ev) (hostLine : Nat) (o : Origin) (data : LineData) (tag : Option Tag)
    (h : Good P K s) : Good P K (heavyWithData hostLine o data tag s).2 := by
  unfold Machine.heavyWithData
  have asked := k.bufferRequest hostLine o data tag h
  split
  · split
    all_goals
      rename_i heq
      rw [heq] at asked
    · exact k.listSuspect _ _ _ asked
    · exact k.listTaken _ _ asked
  · exact k.listSuspect _ _ _ h

theorem heavyPatrol (k : Steady P Ev) (hostLine : Nat) (h : Good P K s) : Good P K (heavyPatrol hostLine s) := by
  unfold Machine.heavyPatrol
  have asked := k.fetchRequest hostLine .patrol h
  split
  · split
    all_goals
      rename_i heq
      rw [heq] at asked
    · exact k.listSuspect _ _ _ asked
    · exact k.examineLine _ (k.listTaken _ _ asked)
    · exact k.listTaken _ _ asked
  · exact k.listSuspect _ _ _ h

/-! ### Host execution -/

theorem readOutcome (k : Steady P Ev) (e : Entry) (ctx : Context) (o : DecodeOutcome) (d : LineData) (hv : Ev K e.tag) (h : Good P K s) :
    Good P K (readOutcome e ctx o d s) := by
  unfold Machine.readOutcome
  split
  · exact k.complete _ _ _ _ hv h
  · exact k.complete _ _ _ _ hv (k.softAction _ _ h)
  · exact k.complete _ _ _ _ hv (k.heavyWithData _ _ _ _ h)
  · exact k.complete _ _ _ _ hv (k.listDataLost _ _ _ h)

theorem mergeOutcome (k : Steady P Ev) (e : Entry) (ctx : Context) (o : DecodeOutcome) (d : LineData) (hv : Ev K e.tag)
    (h : Good P K s) : Good P K (mergeOutcome e ctx o d s) := by
  unfold Machine.mergeOutcome
  dsimp only
  have merged := k.setEntryState e.tag (.executing { ctx with lineData := some (mergedData e d) }) hv h
  split
  · exact merged
  · exact k.softAction _ _ merged
  · have asked := k.heavyWithData e.hostLine .hostWrite (mergedData e d) (some e.tag) merged
    split
    all_goals
      rename_i heq
      rw [heq] at asked
    · exact k.passToRetiring _ _ hv asked
    · exact asked
  · exact k.complete _ _ _ _ hv (k.listDataLost _ _ _ h)

theorem verifyLost (k : Steady P Ev) (e : Entry) (ctx : Context) (hv : Ev K e.tag) (h : Good P K s) :
    Good P K (verifyLost e ctx s) := by
  unfold Machine.verifyLost
  have fault : ∀ {t}, Good P K t → Good P K
      (Machine.complete e ctx .mediaFault none (Machine.listDataLost e.hostLine .verify .hostWrite t)) :=
    fun t => k.complete _ _ _ _ hv (k.listDataLost _ _ _ t)
  have asked := k.bufferRequest e.hostLine .hostWrite (writtenData ctx) (some e.tag) h
  dsimp only
  split
  · split
    all_goals
      rename_i heq
      rw [heq] at asked
    · exact fault asked
    · exact k.passToRetiring _ _ hv (k.listTaken _ _ asked)
  · exact fault h

theorem verifyHeavy (k : Steady P Ev) (e : Entry) (ctx : Context) (hv : Ev K e.tag) (h : Good P K s) :
    Good P K (verifyHeavy e ctx s) := by
  unfold Machine.verifyHeavy
  split
  · exact k.complete _ _ _ _ hv (k.listSuspect _ _ _ h)
  · have asked := k.heavyWithData e.hostLine .hostWrite (writtenData ctx) (some e.tag) h
    split
    all_goals
      rename_i heq
      rw [heq] at asked
    · exact k.passToRetiring _ _ hv asked
    · exact k.complete _ _ _ _ hv asked

theorem verifyOutcome (k : Steady P Ev) (e : Entry) (ctx : Context) (o : DecodeOutcome) (hv : Ev K e.tag)
    (h : Good P K s) : Good P K (verifyOutcome e ctx o s) := by
  unfold Machine.verifyOutcome
  split
  · exact k.complete _ _ _ _ hv (k.removeSuspect _ h)
  · exact k.complete _ _ _ _ hv (k.softAction _ _ h)
  · exact k.verifyHeavy _ _ hv h
  · exact k.verifyLost _ _ hv h

theorem executingResult (k : Steady P Ev) (e : Entry) (ctx : Context) (r : MediaResult) (hv : Ev K e.tag)
    (h : Good P K s) : Good P K (executingResult e ctx r s) := by
  unfold Machine.executingResult
  split
  · exact k.complete _ _ _ _ hv h
  · split
    · exact k.readOutcome _ _ _ _ hv h
    · exact k.mergeOutcome _ _ _ _ hv h
    · exact k.verifyOutcome _ _ _ hv h
    · exact h
  · exact Good.ite (k.setEntryState _ _ hv h) (k.complete _ _ _ _ hv h)
  · exact k.verifyLost _ _ hv h

theorem hostResult (k : Steady P Ev) (tag : Tag) (r : MediaResult) (h : Good P K s) : Good P K (hostResult tag r s) := by
  unfold Machine.hostResult
  split
  · rename_i e he
    split
    · rename_i hx
      exact k.executingResult _ _ _ (k.evidenceOf h (List.mem_of_find?_eq_some he) (by simp [hx])) h
    · exact h
  · exact h

/-! ### Residual operations -/

theorem residualRead (k : Steady P Ev) (x : Residual) (o : DecodeOutcome) (d : LineData) (h : Good P K s) :
    Good P K (residualRead x o d s) := by
  unfold Machine.residualRead
  dsimp only
  split
  · exact Good.ite (k.removeSuspect _ h) h
  · exact k.softAction _ _ h
  · exact Good.ite (k.listSuspect _ _ _ h) (k.heavyWithData _ _ _ _ h)
  · exact k.listDataLost _ _ _ h

theorem residualOutcome (k : Steady P Ev) (x : Residual) (r : MediaResult) (h : Good P K s) :
    Good P K (residualOutcome x r s) := by
  unfold Machine.residualOutcome
  split
  · exact k.residualRead _ _ _ h
  · exact k.listSuspect _ _ _ h
  · exact h
  · exact h

theorem residualResult (k : Steady P Ev)
    (hx : ∀ {s : State} r, P s → P { s with channel := { s.channel with residuals := r } }) (id : SlotId) (r : MediaResult)
    (h : Good P K s) : Good P K (residualResult id r s) := by
  unfold Machine.residualResult
  split
  · rename_i x _
    have told := k.residualOutcome x r h
    exact k.examineLine _ (k.reexamine _ ⟨hx _ told.prop, told.keys⟩)
  · exact h

/-! ### The patrol's results -/

theorem patrolTracked (k : Steady P Ev) (hostLine : Nat) (c : DecodeClass) (h : Good P K s) :
    Good P K (patrolTracked hostLine c s) := by
  cases c with
  | clean => exact h
  | soft => exact k.softAction _ _ h
  | heavy => exact k.heavyPatrol _ h
  | lost => exact k.listDataLost _ _ _ h

theorem decideWriteback (k : Steady P Ev) (d : LineData) (h : Good P K s) : Good P K (decideWriteback d s) := by
  unfold Machine.decideWriteback
  split
  · exact Good.ite (k.skipStep h) (k.patrolTo _ h)
  · exact h

theorem patrolRead (k : Steady P Ev) (st : PatrolStep) (o : DecodeOutcome) (d : LineData) (h : Good P K s) :
    Good P K (patrolRead st o d s) := by
  unfold Machine.patrolRead
  have tracked := k.patrolTracked st.hostLine o.cls (s := tallyOutcome st o.cls s) (Good.ite (k.patrolTo _ h) h)
  dsimp only
  split
  · exact k.decideWriteback _ tracked
  · exact k.endStep tracked

theorem writebackResult (k : Steady P Ev) (st : PatrolStep) (r : MediaResult) (h : Good P K s) :
    Good P K (writebackResult st r s) := by
  unfold Machine.writebackResult
  split
  · exact k.examineLine _ (k.endStep (k.heavyPatrol _ h))
  · exact k.examineLine _ (k.endStep h)

theorem patrolResult (k : Steady P Ev) (r : MediaResult) (h : Good P K s) : Good P K (patrolResult r s) := by
  unfold Machine.patrolResult
  split
  · split
    · exact k.patrolRead _ _ _ h
    · exact k.endStep h
    · exact k.writebackResult _ _ h
    · exact h
  · exact h

end Steady

namespace Closed

variable {P : State → Prop} {Ev : List (Tag × Nat) → Tag → Prop} {K : List (Tag × Nat)} {s : State}

/-! ### Changes of its own -/

theorem putMapEntry (k : Closed P Ev) (e : MapEntry) (h : Good P K s) : Good P K (Machine.putEntry e s) :=
  ⟨k.putEntry e h.prop, h.keys⟩

theorem journalTo (k : Closed P Ev) (j : Journal) (h : Good P K s) : Good P K { s with journal := j } :=
  ⟨k.journal j h.prop, h.keys⟩

theorem opStateTo (k : Closed P Ev) (o : OpState) (h : Good P K s) : Good P K { s with opState := o } :=
  ⟨k.opState o h.prop, h.keys⟩

theorem portTo (k : Closed P Ev) (p : Port) (h : Good P K s) : Good P K { s with port := p } :=
  ⟨k.port p h.prop, h.keys⟩

theorem commitMap (k : Closed P Ev) (j : Job) (spare : Spare) (g : BitVec 32) (h : Good P K s) :
    Good P K (commitMap j spare g s) := by
  unfold Machine.commitMap
  have placed := k.setSpare spare .inUse
    (k.putMapEntry { hostLine := j.hostLine, spare := spare, origin := j.origin, generation := g } h)
  dsimp only
  split
  · exact placed
  · exact k.countDiscarded (k.setSpare _ _ placed)

theorem commitHead (k : Closed P Ev) (g : BitVec 32) (h : Good P K s) : Good P K (commitHead g s) := by
  unfold Machine.commitHead
  split
  · exact h
  · split
    · exact h
    · rename_i j _ _ _ spare _
      have mapped := k.removeSuspect j.hostLine (k.commitMap j spare g h)
      have counted := k.count mapped
        (c := { (Machine.removeSuspect j.hostLine (Machine.commitMap j spare g s)).counters with
                retirementsCommitted := satInc
                  (Machine.removeSuspect j.hostLine (Machine.commitMap j spare g s)).counters.retirementsCommitted })
        (by simp [CountersRise, Counters.inOrder, Noticed.satInc_le])
      exact k.drainCheck (k.promote (k.dequeue (k.completeOriginator _ (k.raise counted))))

/-! ### The Journal Controller -/

theorem presentNext (k : Closed P Ev) (h : Good P K s) : Good P K (presentNext s) := by
  unfold Machine.presentNext
  split
  · exact h
  · exact Good.ite (k.journalTo _ h) (Good.ite (k.journalTo _ h) h)

theorem enterService (k : Closed P Ev) (h : Good P K s) : Good P K (enterService s) :=
  Good.ite (k.drainCheck (k.opStateTo _ h)) (k.opStateTo _ h)

theorem finishRebuild (k : Closed P Ev) (h : Good P K s) : Good P K (finishRebuild s) := k.enterService (k.raise h)

theorem halt (k : Closed P Ev) (cause : HaltCause) (h : Good P K s) : Good P K (halt cause s) :=
  k.raise (k.journalTo _ ⟨k.haltCause cause (k.opState .halted h.prop), h.keys⟩)

theorem answerFailed (k : Closed P Ev) (h : Good P K s) : Good P K (answerFailed s) := by
  unfold Machine.answerFailed
  split
  · exact k.runHead (k.endFailed (k.journalTo _ h))
  · exact h

theorem failCompaction (k : Closed P Ev) (cause : FailCause) (h : Good P K s) : Good P K (failCompaction cause s) :=
  have told := k.answerFailed (k.raise (k.journalTo { s.journal with state := .failed, work := .none } h))
  Good.ite (Good.ite (k.halt _ told) (k.finishRebuild told)) (k.drainCheck told)

theorem startCompaction (k : Closed P Ev) (carries : Bool) (h : Good P K s) : Good P K (startCompaction carries s) :=
  Good.ite (k.failCompaction _ (k.journalTo _ h)) (k.journalTo _ h)

theorem requestAppend (k : Closed P Ev) (r : AppendRecord) (h : Good P K s) : Good P K (requestAppend r s) := by
  unfold Machine.requestAppend
  split
  · exact k.presentNext (k.journalTo _ h)
  · exact k.journalTo _ h
  · exact k.runHead (k.endFailed h)
  · exact h

theorem afterDiscard (k : Closed P Ev) (h : Good P K s) : Good P K (afterDiscard s) := by
  unfold Machine.afterDiscard
  split
  · exact h
  · exact Good.ite (k.endUnplaced _ (fun t => k.raise t) h) (k.enterPlacing h)

theorem answerDone (k : Closed P Ev) (r : AppendRecord) (g : BitVec 32) (h : Good P K s) : Good P K (answerDone r g s) := by
  cases r with
  | retire _ _ => exact k.runHead (k.commitHead g h)
  | reretire _ _ _ => exact k.runHead (k.commitHead g h)
  | discard _ => exact k.runHead (k.afterDiscard h)

theorem journalIdle (k : Closed P Ev) (h : Good P K s) : Good P K (journalIdle s) := k.drainCheck (k.journalTo _ h)

theorem appendDone (k : Closed P Ev) (h : Good P K s) : Good P K (appendDone s) := by
  unfold Machine.appendDone
  split
  · exact h
  · have answered := fun r => k.answerDone r s.journal.generation
      (k.journalTo { s.journal with tail := s.journal.tail + 1, pending := none, work := .none } h)
    exact Good.ite (k.startCompaction _ (answered _)) (k.journalIdle (answered _))

theorem appendFailed (k : Closed P Ev) (h : Good P K s) : Good P K (appendFailed s) :=
  k.startCompaction _ (k.journalTo _ h)

theorem answerCarried (k : Closed P Ev) (c : Compaction) (h : Good P K s) : Good P K (answerCarried c s) := by
  unfold Machine.answerCarried
  split
  · exact k.answerDone _ _ (k.journalTo _ h)
  · exact h

theorem afterCompaction (k : Closed P Ev) (h : Good P K s) : Good P K (afterCompaction s) := by
  unfold Machine.afterCompaction
  split
  · exact k.journalTo _ h
  · exact Good.ite (k.finishRebuild (k.journalTo _ h)) (k.journalIdle h)

theorem compactionDone (k : Closed P Ev) (c : Compaction) (h : Good P K s) : Good P K (compactionDone c s) :=
  k.afterCompaction (k.answerCarried _ (k.raise
    (k.count (k.journalTo (completedJournal s c) h) (by simp [CountersRise, Counters.inOrder, Noticed.satInc_le]))))

theorem compactionAdvance (k : Closed P Ev) (c : Compaction) (h : Good P K s) : Good P K (compactionAdvance c s) := by
  unfold Machine.compactionAdvance
  split
  · exact k.journalTo _ h
  · exact k.compactionDone _ h

theorem beginRebuild (k : Closed P Ev) (h : Good P K s) : Good P K (beginRebuild s) := k.presentNext (k.journalTo _ h)

theorem selectHeader (k : Closed P Ev) (a b : Option (BitVec 32)) (h : Good P K s) : Good P K (selectHeader a b s) := by
  unfold Machine.selectHeader
  split
  · exact k.journalTo _ h
  · exact k.raise (k.journalTo { s.journal with work := .none } (k.opStateTo .unformatted h))

theorem applyBitmap (k : Closed P Ev) (flags : BitVec 1024) (h : Good P K s) : Good P K (applyBitmap flags s) := by
  unfold Machine.applyBitmap
  generalize (⟨⟨(List.finRange 1024).map fun i => if flags.getLsbD i.val then SpareState.discarded else spareState s i⟩,
    by simp⟩ : Vector SpareState 1024) = v
  exact ⟨k.journal _ (k.spares v h.prop), h.keys⟩

theorem applyRecord (k : Closed P Ev) (g : BitVec 32) (r : AppendRecord) (h : Good P K s) :
    Good P K (applyRecord g r s) := by
  cases r with
  | retire _ _ => exact k.setSpare _ _ (k.putMapEntry _ h)
  | reretire _ _ _ => exact k.setSpare _ _ (k.setSpare _ _ (k.putMapEntry _ h))
  | discard _ => exact k.setSpare _ _ h

theorem endReplay (k : Closed P Ev) (torn : Bool) (h : Good P K s) : Good P K (endReplay torn s) :=
  Good.ite (k.startCompaction _ (k.raise h))
    (Good.ite (k.startCompaction _ h) (k.finishRebuild (k.journalTo _ h)))

theorem replayRecord (k : Closed P Ev) (o : DecodeOutcome) (d : LineData) (h : Good P K s) :
    Good P K (replayRecord o d s) := by
  unfold Machine.replayRecord
  dsimp only
  split
  · exact k.endReplay _ h
  · exact k.endReplay _ h
  · have advanced := k.journalTo
      { (Machine.applyRecord (recordOf d).generation ‹AppendRecord› s).journal with
        tail := (Machine.applyRecord (recordOf d).generation ‹AppendRecord› s).journal.tail + 1 }
      (k.applyRecord (recordOf d).generation ‹AppendRecord› h)
    exact Good.ite advanced (k.endReplay _ advanced)

theorem rebuildRead (k : Closed P Ev) (step : RebuildStep) (o : DecodeOutcome) (d : LineData) (h : Good P K s) :
    Good P K (rebuildRead step o d s) := by
  cases step with
  | headerA => exact k.journalTo _ h
  | headerB _ => exact k.selectHeader _ _ h
  | bitmapLow => exact Good.ite (k.halt _ h) (k.journalTo _ h)
  | bitmapHigh _ => exact Good.ite (k.halt _ h) (k.applyBitmap _ h)
  | record => exact k.replayRecord _ _ h

theorem endPending (k : Closed P Ev) (results : List Byte) (h : Good P K s) : Good P K (endPending results s) := by
  unfold Machine.endPending
  split
  · exact k.portTo _ h
  · exact h

theorem initializeDone (k : Closed P Ev) (h : Good P K s) : Good P K (initializeDone s) :=
  k.finishRebuild (k.endPending _ (k.journalTo _ h))

theorem initializeAdvance (k : Closed P Ev) (n : Nat) (h : Good P K s) : Good P K (initializeAdvance n s) :=
  Good.ite (k.journalTo _ h) (k.initializeDone h)

theorem initializeFailed (k : Closed P Ev) (h : Good P K s) : Good P K (initializeFailed s) :=
  k.halt _ (k.endPending _ h)

theorem serviceEnd (k : Closed P Ev) (r : MediaResult) (h : Good P K s) : Good P K (serviceEnd r s) :=
  k.endPending _ (k.journalTo _ h)

theorem workResult (k : Closed P Ev) (r : MediaResult) (h : Good P K s) : Good P K (workResult r s) := by
  unfold Machine.workResult
  split
  · exact h
  · exact k.rebuildRead _ _ _ h
  · exact k.halt _ h
  · exact h
  · exact k.appendDone h
  · exact k.appendFailed h
  · exact k.appendFailed h
  · exact h
  · exact k.compactionAdvance _ h
  · exact k.failCompaction _ h
  · exact k.failCompaction _ h
  · exact h
  · exact k.initializeAdvance _ h
  · exact k.initializeFailed h
  · exact k.initializeFailed h
  · exact h

theorem journalResult (k : Closed P Ev) (r : MediaResult) (h : Good P K s) : Good P K (journalResult r s) := by
  unfold Machine.journalResult
  dsimp only
  split
  · exact k.presentNext (k.workResult r (k.journalTo _ h))
  · exact k.presentNext (k.serviceEnd r (k.journalTo _ h))
  · exact h

/-! ### The head job's results -/

theorem discardSpare (k : Closed P Ev) (h : Good P K s) : Good P K (discardSpare s) := by
  unfold Machine.discardSpare
  split
  · exact k.requestAppend _ (k.headTo _ (fun _ => rfl) (k.countDiscarded (k.setSpare _ _ h)))
  · exact h

theorem enterRecording (k : Closed P Ev) (h : Good P K s) : Good P K (enterRecording s) := by
  unfold Machine.enterRecording
  split
  · split
    · exact k.requestAppend _ (k.headTo _ (fun _ => rfl) h)
    · exact h
  · exact h

theorem fetchResult (k : Closed P Ev) (r : MediaResult) (h : Good P K s) : Good P K (fetchResult r s) := by
  unfold Machine.fetchResult
  split
  · exact Good.ite (k.runHead (k.endLost h)) (k.runHead (k.enterPlacing (k.headTo _ (fun _ => rfl) h)))
  · exact k.runHead (k.endUnplaced _ (fun t => t) h)
  · exact h

theorem placementResult (k : Closed P Ev) (r : MediaResult) (h : Good P K s) : Good P K (placementResult r s) := by
  unfold Machine.placementResult
  split
  · exact k.headTo _ (fun _ => rfl) h
  · exact k.discardSpare h
  · exact k.discardSpare h
  · exact h

theorem checkResult (k : Closed P Ev) (r : MediaResult) (h : Good P K s) : Good P K (checkResult r s) := by
  unfold Machine.checkResult
  split
  · exact Good.ite (k.enterRecording h) (k.discardSpare h)
  · exact k.discardSpare h
  · exact h

theorem retirementResult (k : Closed P Ev) (r : MediaResult) (h : Good P K s) : Good P K (retirementResult r s) := by
  unfold Machine.retirementResult
  split
  · exact h
  · split
    · exact k.fetchResult r h
    · exact k.placementResult r h
    · exact k.checkResult r h
    · exact h

/-- What an owner does with the result of its operation. -/
theorem deliver (k : Closed P Ev) (owner : Owner) (id : SlotId) (r : MediaResult) (h : Good P K s) :
    Good P K (deliver owner id r s) := by
  cases owner with
  | journal => exact k.journalResult r h
  | retirement => exact k.retirementResult r h
  | patrol => exact k.steady.patrolResult r h
  | host tag => exact k.steady.hostResult tag r h
  | residual => exact k.steady.residualResult k.residuals id r h

end Closed
end Sys2Proof.Machine
end

