-- ==== Sys2Proof/Laws/Steps.lean ====
section
/-! SUPPORT. Sys2Proof/Laws/Steps.lean: `Kept P Ev` adds to `Steady P Ev` what the other results of media operations do, the changes
of the operating state and of the journal that commands make, and the changes that the events themselves make; a property
kept by them is kept by every command and every step. Power-up reset, the effect of RESTART and the clearing of the
counters stand as premises, so that a property which holds only between them can use the same theorem. `Closed.kept` gives a
`Kept` property from elementary changes. -/

namespace Sys2Proof.Machine

/-- `P` is kept by the changes that an event makes at its arrival. -/
structure Arrivals (P : State → Prop) : Prop where
  pins : ∀ {s} p, P s → P { s with pins := p }
  pendingTo : ∀ {s} q, P s → P { s with pending := q }
  lineReleased : ∀ {s}, P s → P { s with notices := { s.notices with alert := false, armed := false } }
  admitted : ∀ {s} tag hostLine r, entryOf s tag = none → hostLine < hostLines s → P s → P (admitRequest tag hostLine r s)
  entryLeaves : ∀ {s} tag, P s →
    P { s with channel := { s.channel with table := s.channel.table.filter fun x => x.tag != tag } }
  linkReset : ∀ {s}, P s → P (linkResetValues s)
  settings : ∀ {s} st index value, writtenSettings s.settings (hostLines s) index value = some st → P s →
    P { s with settings := st }
  noticeTaken : ∀ {s n rest}, s.notices.queue = n :: rest → P s → P { s with notices := { s.notices with queue := rest } }
  acknowledged : ∀ {s}, P s → P (ackAlert s)
  ticks : ∀ {s} time pace tick, P s →
    P { s with notices := { s.notices with partTime := time, pace := pace, tick := tick } }

/-- `P` is kept by every change that a command makes but the resets. -/
structure Kept (P : State → Prop) (Ev : List (Tag × Nat) → Tag → Prop) : Prop extends Steady P Ev, Arrivals P where
  port : ∀ {s} p, P s → P { s with port := p }
  delivered : ∀ {s} owner id r, P s → P (deliver owner id r s)
  quiesces : ∀ {s}, s.opState = .ready → P s → P { s with opState := .quiescing }
  resumes : ∀ {s}, s.opState.serving = true → P s → P { s with opState := .ready }
  formats : ∀ {s}, s.opState = .unformatted → P s →
    P (presentNext { s with journal := { s.journal with work := .formatting 0 } })
  slotAsked : ∀ {s} h n, P s → P (presentNext { s with journal := { s.journal with service := some (h, n) } })

theorem Closed.kept {P : State → Prop} {Ev : List (Tag × Nat) → Tag → Prop} (k : Closed P Ev) (a : Arrivals P) : Kept P Ev where
  toSteady := k.steady
  toArrivals := a
  port := k.port
  delivered owner id r h := (k.deliver owner id r ⟨h, rfl⟩).prop
  quiesces _ h := k.opState _ h
  resumes _ h := k.opState _ h
  formats _ h := (k.presentNext ⟨k.journal _ h, rfl⟩).prop
  slotAsked _ _ h := (k.presentNext ⟨k.journal _ h, rfl⟩).prop

namespace Kept

variable {P : State → Prop} {Ev : List (Tag × Nat) → Tag → Prop} {K : List (Tag × Nat)} {s : State}

theorem good (h : P s) : Good P (tableKeys s) s := ⟨h, rfl⟩

theorem clearOut (k : Kept P Ev) (h : P s) : P (clearOut s) := k.out _ h

theorem whenUp (k : Kept P Ev) {f : State → State} (h : P s) (hf : P (Machine.clearOut s) → P (f (Machine.clearOut s))) :
    P (whenUp f s) := by
  unfold Machine.whenUp
  split
  · exact k.clearOut h
  · exact hf (k.clearOut h)

/-! ### Host and media events -/

theorem requestArrives (k : Kept P Ev) (tag : Tag) (r : Option Request) (hostLine : Nat) (h : P s) :
    P (requestArrives tag r hostLine s) := by
  have refused : ∀ status, P (refuseRequest tag status s) := fun status => (k.emitCompletion _ (good h)).prop
  unfold Machine.requestArrives
  split
  · exact (k.raise (k.count (good h) (by simp [CountersRise, Counters.inOrder, Noticed.satInc_le]))).prop
  · rename_i ht
    split
    · exact refused _
    · split
      · split
        · rename_i hlt
          exact (k.settle (good (k.admitted _ _ _ (by simpa using ht) hlt h))).prop
        · exact refused _
      · exact refused _

theorem takeCompletion (k : Kept P Ev) (tag : Tag) (h : P s) : P (takeCompletion tag s) := by
  unfold Machine.takeCompletion
  split
  · split
    · refine (k.reexamine _ (good ?_)).prop
      exact k.entryLeaves tag (k.emitCompletion _ (good h)).prop
    · exact h
  · exact h

theorem linkResets (k : Kept P Ev) (h : P s) : P (Machine.linkReset s) := by
  unfold Machine.linkReset
  split
  · exact (k.settle (k.runHead (good (k.linkReset h)))).prop
  · exact (k.settle (good (k.linkReset h))).prop

theorem readDataArrives (k : Kept P Ev) (id : SlotId) (word : Codeword) (h : P s) : P (readDataArrives id word s) := by
  unfold Machine.readDataArrives
  split
  · exact (k.settle (good (k.delivered _ _ _ (k.countDecode _ (k.setSlot _ _ (good h))).prop))).prop
  · exact h

theorem endWrite (k : Kept P Ev) (id : SlotId) (owner : Owner) (r : MediaResult) (h : P s) : P (endWrite id owner r s) :=
  (k.settle (good (k.delivered _ _ _ (k.setSlot _ _ (good h)).prop))).prop

theorem writeStatusArrives (k : Kept P Ev) (id : SlotId) (status : WriteStatus) (h : P s) :
    P (writeStatusArrives id status s) := by
  unfold Machine.writeStatusArrives
  split
  · split
    · exact k.endWrite _ _ _ h
    · split
      · exact (k.emitMedia _ (k.setSlot _ _ (good h))).prop
      · exact k.endWrite _ _ _ h
    · exact h
  · exact h

theorem operationTimesOut (k : Kept P Ev) (id : SlotId) (h : P s) : P (operationTimesOut id s) := by
  unfold Machine.operationTimesOut
  split
  · exact (k.settle (good (k.delivered _ _ _ (k.raise (k.countTimeout (k.setSlot _ _ (good h)))).prop))).prop
  · exact h

theorem quarantineEnds (k : Kept P Ev) (id : SlotId) (h : P s) : P (quarantineEnds id s) := by
  unfold Machine.quarantineEnds
  split
  · exact (k.settle (k.setSlot _ _ (good h))).prop
  · exact h

/-! ### Timer events -/

theorem expiryInReady (k : Kept P Ev) (h : Good P K s) : Good P K (expiryInReady s) :=
  Good.ite (k.missExpiry h) (Good.ite (k.sweepEnd h)
    (Good.ite (k.advanceCursor (k.tallySkipped (k.countSkipped (k.countStep h)))) (k.countStep (k.patrolTo _ h))))

theorem patrolExpires (k : Kept P Ev) (h : P s) : P (patrolExpires s) := by
  unfold Machine.patrolExpires
  split
  · exact h
  · have restarted := k.patrolTo { s.patrol with timer := 0 } (good h)
    dsimp only
    split
    · exact (k.settle (k.expiryInReady restarted)).prop
    · exact restarted.prop

theorem tick (k : Kept P Ev) (h : P s) : P (tick s) := by
  unfold Machine.tick
  dsimp only
  split
  · exact k.alert (k.ticks _ _ _ h)
  · exact k.ticks _ _ _ h

theorem paceWraps (k : Kept P Ev) (h : P s) : P (paceWraps s) := by
  unfold Machine.paceWraps
  split
  · exact k.tick h
  · exact h

/-! ### Resets and pins -/

theorem enterQuiescing (k : Kept P Ev) (ho : s.opState = .ready) (h : Good P K s) : Good P K (enterQuiescing s) :=
  k.settle (k.drainCheck (k.patrolSeesQuiesce ⟨k.quiesces ho h.prop, h.keys⟩))

theorem pwarnRises (k : Kept P Ev) (h : P s) : P (pwarnRises s) := by
  unfold Machine.pwarnRises
  dsimp only
  split
  · rename_i hr
    exact (k.enterQuiescing (s := { s with pins := { s.pins with pwarn := true } }) hr.2.2 (good (k.pins _ h))).prop
  · exact k.pins _ h

/-! ### The Service Port -/

theorem takeFrame (k : Kept P Ev) (f : Frame) {answer : State → Reply × State}
    (ha : P (receive f s) → P (answer (receive f s)).2) (h : P s) : P (takeFrame f answer s) := by
  unfold Machine.takeFrame
  split
  · exact h
  · have received : P (receive f s) := k.port _ h
    split
    · exact k.out _ received
    · exact k.out _ (k.port _ (ha received))

theorem serve (k : Kept P Ev) (code : Byte) (operands : List Byte) {answer : State → Reply × State} {t : State}
    (ha : ∀ {u : State}, P u → P (answer u).2) (h : P s) (ht : serve code operands answer s = .next t) : P t := by
  injection ht with ht
  subst ht
  exact k.whenUp h fun h => k.takeFrame _ (fun hr => ha hr) h

theorem takePoll (k : Kept P Ev) (h : P s) : P (takePoll s) := by
  unfold Machine.takePoll
  split
  · exact h
  · have polled := k.port
      { s.port with selection := .poll (pollResponse s.port.command).1 (pollResponse s.port.command).2 } h
    exact k.out { s.out with pollResponse := some (pollResponse s.port.command).1 } polled

theorem releaseResponse (k : Kept P Ev) (h : P s) : P (releaseResponse s) := by
  unfold Machine.releaseResponse
  split
  · exact k.port _ h
  · exact k.port _ h
  · exact h

theorem takeRestart (k : Kept P Ev) (h : P s) : P (takeRestart s) := by
  unfold Machine.takeRestart
  split
  · exact h
  · exact k.out _ (k.port _ (k.port _ h))

theorem settingWritten (k : Kept P Ev) (index : Byte) (h : P s) : P (settingWritten index s) := by
  unfold Machine.settingWritten
  split
  · exact k.patrol _ h
  · split
    · exact k.pace _ h
    · exact h
  · exact h

theorem answerWriteSetting (k : Kept P Ev) (index : Byte) (value : BitVec 32) (h : P s) :
    P (answerWriteSetting index value s).2 := by
  unfold Machine.answerWriteSetting
  split
  · rename_i st hst
    exact k.settingWritten _ (k.settings st index value hst h)
  · exact h

theorem answerRetireLine (k : Kept P Ev) (hostLine : Nat) (h : P s) : P (answerRetireLine hostLine s).2 := by
  unfold Machine.answerRetireLine
  split
  · exact h
  · split
    · exact h
    · rename_i ho
      split
      · exact h
      · rename_i hl
        split
        · exact h
        · rename_i hq
          have ho := Classical.not_not.mp fun hn => ho (.inl hn)
          exact (k.settle (k.examineLine _ (k.enqueue _ _ _ _ ho (by simpa using hl) (Nat.lt_of_not_le hq) (good h)))).prop

/-! ### Every command, every step -/

/-- Every command keeps the property, the three resets of the counters or the whole state being premises. -/
theorem exec (k : Kept P Ev) {c : Instr} {t : State}
    (hUp : ∀ straps, c = .powerUpReset straps → P (beginRebuild (powerUpValues straps s)))
    (hRestart : c = .restartEffect → P (beginRebuild (restartValues (Machine.clearOut s))))
    (hClear : ∀ p o, c = .getCounters 1 → P { s with port := p, out := o, counters := .zero })
    (h : P s) (ht : exec c s = .next t) : P t := by
  cases c with
  | hostRequest kind tagByte hostLine data mask =>
    injection ht with ht; subst ht
    exact k.whenUp h fun h => k.requestArrives _ _ _ h
  | completion tag =>
    injection ht with ht; subst ht
    exact k.whenUp h fun h => (k.settle (good (k.takeCompletion _ h))).prop
  | linkReset => injection ht with ht; subst ht; exact k.whenUp h fun h => k.linkResets h
  | powerUpReset straps => injection ht with ht; subst ht; exact (k.settle (good (hUp straps rfl))).prop
  | pwarnAsserted => injection ht with ht; subst ht; exact k.pwarnRises (k.clearOut h)
  | readData id word => injection ht with ht; subst ht; exact k.whenUp h fun h => k.readDataArrives _ _ h
  | writeStatus id status => injection ht with ht; subst ht; exact k.whenUp h fun h => k.writeStatusArrives _ _ h
  | operationTimeout id => injection ht with ht; subst ht; exact k.whenUp h fun h => k.operationTimesOut _ h
  | quarantineExpiry id => injection ht with ht; subst ht; exact k.whenUp h fun h => k.quarantineEnds _ h
  | patrolExpiry => injection ht with ht; subst ht; exact k.whenUp h fun h => k.patrolExpires h
  | millisecondTick => injection ht with ht; subst ht; exact k.whenUp h fun h => k.tick h
  | paceWrap => injection ht with ht; subst ht; exact k.whenUp h fun h => k.paceWraps h
  | getStatus => exact k.serve _ _ (fun h => h) h ht
  | getCounters clear =>
    injection ht with ht
    subst ht
    refine k.whenUp h fun hc => k.takeFrame _ (fun hr => ?_) hc
    unfold answerGetCounters
    split
    · exact hr
    · split
      · rename_i h1
        exact hClear _ _ (by rw [h1])
      · exact hr
  | readSetting index => exact k.serve _ _ (fun h => by unfold answerReadSetting; split <;> exact h) h ht
  | writeSetting index value => exact k.serve _ _ (fun h => k.answerWriteSetting _ _ h) h ht
  | takeNotice =>
    refine k.serve _ _ (fun h => ?_) h ht
    unfold answerTakeNotice
    split
    · exact h
    · rename_i hq
      exact k.noticeTaken hq h
  | peekNotice => exact k.serve _ _ (fun h => by unfold answerPeekNotice; split <;> exact h) h ht
  | ackAlert => exact k.serve _ _ (fun h => k.acknowledged h) h ht
  | lookupLine hostLine => exact k.serve _ _ (fun h => by unfold answerLookupLine; split <;> exact h) h ht
  | readSpare spare => exact k.serve _ _ (fun h => by unfold answerReadSpare; split <;> exact h) h ht
  | readSuspect position =>
    refine k.serve _ _ (fun h => ?_) h ht
    unfold answerReadSuspect
    split
    · exact h
    · split <;> exact h
  | clearSuspect hostLine =>
    refine k.serve _ _ (fun h => ?_) h ht
    unfold answerClearSuspect
    split
    · exact k.suspectLeaves _ h
    · exact h
  | retireLine hostLine => 
    exact k.serve 12 (be32 hostLine) (answer := Machine.answerRetireLine hostLine.toNat) (fun h => k.answerRetireLine _ h) h ht
  | restartSweep =>
    refine k.serve _ _ (fun h => ?_) h ht
    unfold answerRestartSweep
    split
    · exact (k.sweepEnd (good h)).prop
    · exact h
  | quiesce =>
    refine k.serve _ _ (fun h => ?_) h ht
    unfold answerQuiesce
    split
    · rename_i ho
      exact (k.enterQuiescing ho (good h)).prop
    · split <;> exact h
  | resume =>
    refine k.serve _ _ (fun h => ?_) h ht
    unfold answerResume
    split
    · rename_i ho
      exact k.resumes ho h
    · exact h
  | restart => injection ht with ht; subst ht; exact k.whenUp h fun h => k.takeRestart h
  | restartEffect =>
    injection ht with ht
    subst ht
    refine k.whenUp h fun hc => ?_
    unfold restartTakesEffect
    split
    · exact (k.settle (good (hRestart rfl))).prop
    · exact hc
  | initializeJournal =>
    refine k.serve _ _ (fun h => ?_) h ht
    unfold answerInitializeJournal
    split
    · rename_i ho
      exact (k.settle (good (k.formats ho h))).prop
    · exact h
  | readJournalSlot half slot =>
    refine k.serve _ _ (fun h => ?_) h ht
    unfold answerReadJournalSlot
    split
    · split
      · exact (k.settle (good (k.slotAsked _ _ h))).prop
      · exact h
    · exact h
  | unknownCommandFrame code length operands =>
    simp only [Machine.exec, execUnknownCommandFrame] at ht
    split at ht
    · injection ht with ht
      subst ht
      exact k.whenUp h fun h => k.takeFrame _ (fun hr => hr) h
    · simp at ht
  | poll => injection ht with ht; subst ht; exact k.whenUp h fun h => k.takePoll h
  | responseRelease => injection ht with ht; subst ht; exact k.whenUp h fun h => k.releaseResponse h
  | pwarnDeasserted => injection ht with ht; subst ht; exact k.pins _ (k.clearOut h)
  | resetnAsserted => injection ht with ht; subst ht; exact k.port _ (k.lineReleased (k.pins _ (k.clearOut h)))

theorem passMicrosecond (k : Kept P Ev) (h : P s) : P (passMicrosecond s) := by
  unfold Machine.passMicrosecond
  split
  · exact h
  · exact k.ticks s.notices.partTime s.notices.pace (s.notices.tick + 1)
      (k.patrol { s.patrol with timer := if s.settings.patrolInterval = 0 then 0 else s.patrol.timer + 1 }
        (k.slots (s.media.slots.map slotLater) h))

/-- An expiry that the part's clock finds due is one of the timer events. -/
theorem nextDue_timer {c : Instr} (h : nextDue s = some c) :
    (∃ id, c = .operationTimeout id) ∨ (∃ id, c = .quarantineExpiry id) ∨ c = .patrolExpiry ∨ c = .paceWrap
      ∨ c = .millisecondTick := by
  unfold nextDue at h
  split at h
  · simp at h
  · simp only [Option.or_eq_some_iff] at h
    rcases h with h | ⟨-, h | ⟨-, h⟩⟩
    · obtain ⟨id, -, h⟩ := List.exists_of_findSome?_eq_some h
      unfold dueAtSlot at h
      split at h
      · split at h <;> simp at h
        exact .inl ⟨_, h.symm⟩
      · split at h <;> simp at h
        exact .inr (.inl ⟨_, h.symm⟩)
      · simp at h
    · unfold dueAtPatrol at h
      split at h <;> simp at h
      exact .inr (.inr (.inl h.symm))
    · unfold dueAtTick at h
      split at h <;> simp at h
      split at h
      · exact .inr (.inr (.inr (.inl h.symm)))
      · exact .inr (.inr (.inr (.inr h.symm)))

/-- Every step keeps the property. -/
theorem step (k : Kept P Ev) {t : State} (hUp : ∀ u straps, P u → P (beginRebuild (powerUpValues straps u)))
    (hRestart : ∀ u, P u → P (beginRebuild (restartValues u))) (hClear : ∀ u, P u → P { u with counters := .zero })
    (h : P s) (ht : step s = .next t) : P t := by
  have run : ∀ {c u}, P u → Machine.exec c u = .next t → P t := fun hu hx =>
    k.exec (fun straps _ => hUp _ straps hu) (fun _ => hRestart _ (k.clearOut hu))
      (fun p o _ => hClear _ (k.out o (k.port p hu))) hu hx
  unfold Machine.step at ht
  split at ht
  · exact run (k.pendingTo _ h) ht
  · unfold idle at ht
    split at ht
    · exact run h ht
    · injection ht with ht
      subst ht
      exact k.passMicrosecond (k.clearOut h)

end Kept
end Sys2Proof.Machine
end

