-- ==== Sys2Proof/Laws/Operations.lean ====
section
/-! SUPPORT. Sys2Proof/Laws/Operations.lean: what the shared operations answer, case by case, and what they leave as it is: the
raising of a notice, the answers to job requests, the Suspect List's listings, and the grants at the end of an event. -/

namespace Sys2Proof.Machine

variable {s t : State}

/-! ### Notices -/

/-- An alert request on a RELEASED line (R180). -/
theorem alertRequest_released (h : s.notices.alert = false) :
    alertRequest s = { s with notices := { s.notices with alert := true } } := by
  simp [alertRequest, h]

/-- An alert request on an ASSERTED line (R180). -/
theorem alertRequest_asserted (h : s.notices.alert = true) :
    alertRequest s = { s with notices := { s.notices with armed := true } } := by
  simp [alertRequest, h]

/-- A notice raised into a full queue (R175). -/
theorem raise_full {kind hostLine spare oldSpare values} (h : 32 ≤ s.notices.queue.length) :
    raise kind hostLine spare oldSpare values s =
      { s with
        notices := { s.notices with sequence := s.notices.sequence + 1 }
        counters := { s.counters with noticesDropped := satInc s.counters.noticesDropped } } := by
  unfold raise
  rw [if_neg (Nat.not_lt.mpr h)]

/-- What changes of the Notice Unit, of the counters, of the patrol and of the passed-over count leave as it is. -/
structure OutsidePatrol (s t : State) : Prop where
  channel : t.channel = s.channel
  lineMap : t.lineMap = s.lineMap
  slots : t.media.slots = s.media.slots
  suspects : t.suspects = s.suspects
  queue : t.queue = s.queue
  journal : t.journal = s.journal
  opState : t.opState = s.opState
  haltCause : t.haltCause = s.haltCause
  port : t.port = s.port
  settings : t.settings = s.settings
  straps : t.straps = s.straps
  pins : t.pins = s.pins
  out : t.out = s.out
  pending : t.pending = s.pending

theorem OutsidePatrol.noticed (s : State) : Noticed (OutsidePatrol s) where
  patrol _ h := { h with }
  passedZero h := { h with }
  counters _ _ h := { h with }
  alert {t} h := by
    cases ha : t.notices.alert
    · rw [alertRequest_released ha]
      exact { h with }
    · rw [alertRequest_asserted ha]
      exact { h with }
  noticeEnters _ _ h := { h with }
  noticeDropped h := { h with }
  pace _ h := { h with }

theorem OutsidePatrol.refl (s : State) : OutsidePatrol s s :=
  ⟨rfl, rfl, rfl, rfl, rfl, rfl, rfl, rfl, rfl, rfl, rfl, rfl, rfl, rfl⟩

/-- A raised notice changes the Notice Unit and the counters, and nothing else (R174, R175). -/
theorem raise_outside {kind hostLine spare oldSpare values} :
    OutsidePatrol s (raise kind hostLine spare oldSpare values s) :=
  ((OutsidePatrol.noticed s).raise (K := tableKeys s) ⟨.refl s, rfl⟩).prop

/-- What the end of a sweep leaves as it is (R167). -/
theorem sweepEnd_outside : OutsidePatrol s (sweepEnd s) :=
  ((OutsidePatrol.noticed s).sweepEnd (K := tableKeys s) ⟨.refl s, rfl⟩).prop

/-- What the patrol's reaction to a host write leaves as it is (R162, R164). -/
theorem patrolSeesWrite_outside (hostLine : Nat) : OutsidePatrol s (patrolSeesWrite hostLine s) :=
  ((OutsidePatrol.noticed s).patrolSeesWrite (K := tableKeys s) hostLine ⟨.refl s, rfl⟩).prop

/-- What the patrol's reaction to a lock leaves as it is (R161, R162, R164). -/
theorem patrolSeesLock_outside (hostLine : Nat) : OutsidePatrol s (patrolSeesLock hostLine s) :=
  ((OutsidePatrol.noticed s).patrolSeesLock (K := tableKeys s) hostLine ⟨.refl s, rfl⟩).prop

/-- What the patrol's reaction to the entry to QUIESCING leaves as it is (R164, R170). -/
theorem patrolSeesQuiesce_outside : OutsidePatrol s (patrolSeesQuiesce s) :=
  ((OutsidePatrol.noticed s).patrolSeesQuiesce (K := tableKeys s) ⟨.refl s, rfl⟩).prop

/-- With no step in flight the patrol does nothing at a host write, a lock or the entry to QUIESCING. -/
theorem patrolSees_idle (h : s.patrol.step = none) (hostLine : Nat) :
    patrolSeesWrite hostLine s = s ∧ patrolSeesLock hostLine s = s ∧ patrolSeesQuiesce s = s := by
  simp [patrolSeesWrite, patrolSeesLock, patrolSeesQuiesce, h]

/-! ### Job requests -/

/-- A BUFFER request by the rows of R96, with what each answer does to the queue. -/
theorem bufferRequest_cases (hostLine : Nat) (o : Origin) (data : LineData) (tag : Option Tag) (s : State) :
    (bufferRequest hostLine o data tag s = (.refused, s)) ∨
      (s.opState = .ready ∧ s.journal.state ≠ .failed ∧
        (((∃ j, jobOf s hostLine = some j ∧ j.source = .fetch ∧ j.state = .queued) ∧
            bufferRequest hostLine o data tag s = (.adopted, adopt hostLine data tag s)) ∨
          (jobOf s hostLine = none ∧ s.queue.length < 8 ∧
            bufferRequest hostLine o data tag s = (.enqueued, enqueue hostLine o (some data) tag s)))) := by
  unfold bufferRequest
  split
  · exact .inl rfl
  · rename_i ho
    split
    · exact .inl rfl
    · rename_i hj
      split
      · rename_i j hq
        split
        · rename_i hc
          exact .inr ⟨Classical.not_not.mp ho, hj, .inl ⟨⟨j, hq, hc⟩, rfl⟩⟩
        · exact .inl rfl
      · rename_i hq
        split
        · exact .inl rfl
        · rename_i hl
          exact .inr ⟨Classical.not_not.mp ho, hj, .inr ⟨hq, Nat.lt_of_not_le hl, rfl⟩⟩

/-- A FETCH request by the rows of R97, with what each answer does to the queue. -/
theorem fetchRequest_cases (hostLine : Nat) (o : Origin) (s : State) :
    (fetchRequest hostLine o s = (.refused, s)) ∨
      (s.opState = .ready ∧ s.journal.state ≠ .failed ∧
        ((isLocked s hostLine = true ∧ fetchRequest hostLine o s = (.alreadyQueued, s)) ∨
          (isLocked s hostLine = false ∧ s.queue.length < 8 ∧
            fetchRequest hostLine o s = (.enqueued, enqueue hostLine o none none s)))) := by
  unfold fetchRequest
  split
  · exact .inl rfl
  · rename_i ho
    split
    · exact .inl rfl
    · rename_i hj
      split
      · rename_i hl
        exact .inr ⟨Classical.not_not.mp ho, hj, .inl ⟨hl, rfl⟩⟩
      · rename_i hl
        split
        · exact .inl rfl
        · rename_i hq
          exact .inr ⟨Classical.not_not.mp ho, hj, .inr ⟨by simpa using hl, Nat.lt_of_not_le hq, rfl⟩⟩

/-- Outside READY every BUFFER request is REFUSED (R96, row 1). -/
theorem bufferRequest_refused {hostLine o data tag} (h : s.opState ≠ .ready) :
    bufferRequest hostLine o data tag s = (.refused, s) := by
  unfold bufferRequest
  rw [if_pos h]

/-! ### Grants -/

/-- With no slot FREE the grants of an event are none (R62). -/
theorem settle_busy (h : ∀ id : SlotId, s.media.slots[id.val] ≠ .free) : settle s = s := by
  have : lowestFreeSlot s = none := by
    simp only [lowestFreeSlot, List.find?_eq_none, List.mem_finRange, forall_const, beq_iff_eq]
    exact fun id => h id
  unfold settle grantLoop
  rw [this]

/-- With no claim waiting the grants of an event are none (R62). -/
theorem settle_noClaim (h : winner s = none) : settle s = s := by
  unfold settle grantLoop
  rw [h]
  split
  · rename_i hw
    cases hw
  · rfl

/-- What grants leave as it is in every operating state. -/
structure OutsideGrants (s t : State) : Prop where
  journal : t.journal = s.journal
  haltCause : t.haltCause = s.haltCause
  settings : t.settings = s.settings
  straps : t.straps = s.straps
  pins : t.pins = s.pins
  port : t.port = s.port
  pending : t.pending = s.pending
  entries : t.lineMap.entries = s.lineMap.entries
  arrival : t.channel.arrival = s.channel.arrival
  residuals : t.channel.residuals = s.channel.residuals

theorem OutsideGrants.shared (s : State) : Shared (OutsideGrants s) (fun _ _ => True) where
  patrol _ h := { h with }
  passedZero h := { h with }
  counters _ _ h := { h with }
  alert {t} h := by
    cases ha : t.notices.alert
    · rw [alertRequest_released ha]
      exact { h with }
    · rw [alertRequest_asserted ha]
      exact { h with }
  noticeEnters _ _ h := { h with }
  noticeDropped h := { h with }
  pace _ h := { h with }
  out _ h := { h with }
  drained _ h := { h with }
  slots _ h := { h with }
  passedRise h _ := { h with }
  spares _ h := { h with }
  suspectJoins _ _ _ h := { h with }
  suspectReplaces _ _ _ _ h := { h with }
  suspectsChange _ _ h := { h with }
  suspectLeaves _ h := { h with }
  jobJoins _ _ _ _ _ _ _ h := { h with }
  adopts _ _ _ h := { h with }
  headChanges f _ h := by
    unfold updateHead
    split
    · exact h
    · exact { h with }
  headLeaves _ h := { h with }
  entryChanges _ _ _ _ h := { h with }
  entriesLock _ h := { h with }
  entriesUnlock _ h := { h with }
  evidence _ _ _ := trivial
  evidenceFirst _ _ := trivial

/-- The grants of an event leave the journal, the settings, the port, the map entries and the rest of `OutsideGrants` as they
are. -/
theorem settle_outside : OutsideGrants s (settle s) :=
  ((OutsideGrants.shared s).settle (K := tableKeys s)
    ⟨⟨rfl, rfl, rfl, rfl, rfl, rfl, rfl, rfl, rfl, rfl⟩, rfl⟩).prop

/-- What grants also leave as it is outside READY, where no job request is taken; with no step in flight, the patrol, the
notices and the counters too. -/
structure OutsideQuietGrants (s t : State) : Prop where
  opState : t.opState = s.opState
  queue : t.queue = s.queue
  suspects : t.suspects = s.suspects
  lineMap : t.lineMap = s.lineMap
  step : s.patrol.step = none → t.patrol = s.patrol
  notices : s.patrol.step = none → t.notices = s.notices
  counters : s.patrol.step = none → t.counters = s.counters

theorem OutsideQuietGrants.trans {u : State} (a : OutsideQuietGrants s t) (b : OutsideQuietGrants t u) :
    OutsideQuietGrants s u where
  opState := b.opState.trans a.opState
  queue := b.queue.trans a.queue
  suspects := b.suspects.trans a.suspects
  lineMap := b.lineMap.trans a.lineMap
  step h := (b.step ((congrArg Patrol.step (a.step h)).trans h)).trans (a.step h)
  notices h := (b.notices ((congrArg Patrol.step (a.step h)).trans h)).trans (a.notices h)
  counters h := (b.counters ((congrArg Patrol.step (a.step h)).trans h)).trans (a.counters h)

theorem patrolSeesWrite_quiet (hostLine : Nat) : OutsideQuietGrants s (patrolSeesWrite hostLine s) where
  opState := (patrolSeesWrite_outside hostLine).opState
  queue := (patrolSeesWrite_outside hostLine).queue
  suspects := (patrolSeesWrite_outside hostLine).suspects
  lineMap := (patrolSeesWrite_outside hostLine).lineMap
  step h := by rw [(patrolSees_idle h hostLine).1]
  notices h := by rw [(patrolSees_idle h hostLine).1]
  counters h := by rw [(patrolSees_idle h hostLine).1]

theorem issue_quiet (id : SlotId) (r : MediaRequest) (o : Owner) : OutsideQuietGrants s (issue id r o s) := by
  cases r <;> exact ⟨rfl, rfl, rfl, rfl, fun _ => rfl, fun _ => rfl, fun _ => rfl⟩

theorem firstWriteGrant_quiet (id : SlotId) (e : Entry) (data : LineData) (h : s.opState ≠ .ready) :
    OutsideQuietGrants s (firstWriteGrant id e data s) := by
  unfold firstWriteGrant
  have begun (t : State) (ctx : Context) : OutsideQuietGrants t (beginWrite id e ctx t) :=
    ⟨rfl, rfl, rfl, rfl, fun _ => rfl, fun _ => rfl, fun _ => rfl⟩
  have started : OutsideQuietGrants s
      (patrolSeesWrite e.hostLine (setEntryState e.tag (.executing (newContext s e .write (some data))) s)) :=
    OutsideQuietGrants.trans (t := setEntryState e.tag (.executing (newContext s e .write (some data))) s)
      ⟨rfl, rfl, rfl, rfl, fun _ => rfl, fun _ => rfl, fun _ => rfl⟩ (patrolSeesWrite_quiet _)
  dsimp only
  split
  · rw [bufferRequest_refused (by rw [started.opState]; exact h)]
    exact started.trans (begun _ _)
  · exact started.trans (begun _ _)

theorem hostGrant_quiet (id : SlotId) (e : Entry) (h : s.opState ≠ .ready) : OutsideQuietGrants s (hostGrant id e s) := by
  have counted : OutsideQuietGrants s (countPassedOver s) := by
    unfold countPassedOver
    split <;> exact ⟨rfl, rfl, rfl, rfl, fun _ => rfl, fun _ => rfl, fun _ => rfl⟩
  have h' : (countPassedOver s).opState ≠ .ready := by rw [counted.opState]; exact h
  refine counted.trans ?_
  unfold hostGrant firstGrant laterGrant
  dsimp only
  split
  · split
    · exact ⟨rfl, rfl, rfl, rfl, fun _ => rfl, fun _ => rfl, fun _ => rfl⟩
    · exact firstWriteGrant_quiet _ _ _ h'
    · split
      · exact firstWriteGrant_quiet _ _ _ h'
      · refine OutsideQuietGrants.trans (OutsideQuietGrants.trans
          (t := setEntryState e.tag (.executing (newContext (countPassedOver s) e .mergeRead (some ‹LineData›)))
            (countPassedOver s)) ?_ (patrolSeesWrite_quiet e.hostLine)) ?_
        all_goals exact ⟨rfl, rfl, rfl, rfl, fun _ => rfl, fun _ => rfl, fun _ => rfl⟩
  · split <;> exact ⟨rfl, rfl, rfl, rfl, fun _ => rfl, fun _ => rfl, fun _ => rfl⟩
  · exact ⟨rfl, rfl, rfl, rfl, fun _ => rfl, fun _ => rfl, fun _ => rfl⟩

theorem patrolGrant_quiet (id : SlotId) : OutsideQuietGrants s (patrolGrant id s) := by
  unfold patrolGrant
  dsimp only
  split
  · rename_i hst
    have not : ¬ s.patrol.step = none := by rw [hst]; exact Option.some_ne_none _
    split <;> exact ⟨rfl, rfl, rfl, rfl, fun hn => absurd hn not, fun hn => absurd hn not, fun hn => absurd hn not⟩
  · exact ⟨rfl, rfl, rfl, rfl, fun _ => rfl, fun _ => rfl, fun _ => rfl⟩

theorem grantLoop_quiet (n : Nat) : ∀ {s : State}, s.opState ≠ .ready → OutsideQuietGrants s (grantLoop n s) := by
  induction n with
  | zero => exact fun _ => ⟨rfl, rfl, rfl, rfl, fun _ => rfl, fun _ => rfl, fun _ => rfl⟩
  | succ n ih =>
    intro s h
    unfold grantLoop
    split
    · rename_i id w _ _
      have granted : OutsideQuietGrants s (grant id w s) := by
        cases w
        · exact issue_quiet _ _ _
        · exact issue_quiet _ _ _
        · exact patrolGrant_quiet _
        · exact hostGrant_quiet _ _ h
      exact granted.trans (ih (by rw [granted.opState]; exact h))
    · exact ⟨rfl, rfl, rfl, rfl, fun _ => rfl, fun _ => rfl, fun _ => rfl⟩

/-- Outside READY the grants of an event leave the operating state, the queue, the Suspect List, the map and the pool as they
are. -/
theorem settle_quiet (h : s.opState ≠ .ready) : OutsideQuietGrants s (settle s) := grantLoop_quiet _ h

end Sys2Proof.Machine
end

