-- ==== Sys2Proof/Laws/State.lean ====
section
/-! SUPPORT. Sys2Proof/Laws/State.lean: what each elementary update of the state leaves as it is, one lemma per field, so that no
proof unfolds a record update. -/

namespace Sys2Proof.Machine

/-- HostLines is MediaLines - 5120 at every code (R1). -/
theorem hostLinesOf_eq (straps : BitVec 2) : hostLinesOf straps = mediaLinesOf straps - 5120 := by
  revert straps
  decide

/-- MediaLines is 2^22 at code 0 and doubles with each code (table of 1.1). -/
theorem mediaLinesOf_eq (straps : BitVec 2) : mediaLinesOf straps = 4194304 * 2 ^ straps.toNat := by
  revert straps
  decide

variable (s : State)

/-! ### setSpare -/

@[simp] theorem setSpare_channel (i : Spare) (st : SpareState) : (setSpare i st s).channel = s.channel := rfl
@[simp] theorem setSpare_media (i : Spare) (st : SpareState) : (setSpare i st s).media = s.media := rfl
@[simp] theorem setSpare_suspects (i : Spare) (st : SpareState) : (setSpare i st s).suspects = s.suspects := rfl
@[simp] theorem setSpare_queue (i : Spare) (st : SpareState) : (setSpare i st s).queue = s.queue := rfl
@[simp] theorem setSpare_journal (i : Spare) (st : SpareState) : (setSpare i st s).journal = s.journal := rfl
@[simp] theorem setSpare_opState (i : Spare) (st : SpareState) : (setSpare i st s).opState = s.opState := rfl
@[simp] theorem setSpare_haltCause (i : Spare) (st : SpareState) : (setSpare i st s).haltCause = s.haltCause := rfl
@[simp] theorem setSpare_patrol (i : Spare) (st : SpareState) : (setSpare i st s).patrol = s.patrol := rfl
@[simp] theorem setSpare_notices (i : Spare) (st : SpareState) : (setSpare i st s).notices = s.notices := rfl
@[simp] theorem setSpare_port (i : Spare) (st : SpareState) : (setSpare i st s).port = s.port := rfl
@[simp] theorem setSpare_settings (i : Spare) (st : SpareState) : (setSpare i st s).settings = s.settings := rfl
@[simp] theorem setSpare_counters (i : Spare) (st : SpareState) : (setSpare i st s).counters = s.counters := rfl
@[simp] theorem setSpare_straps (i : Spare) (st : SpareState) : (setSpare i st s).straps = s.straps := rfl
@[simp] theorem setSpare_pins (i : Spare) (st : SpareState) : (setSpare i st s).pins = s.pins := rfl
@[simp] theorem setSpare_out (i : Spare) (st : SpareState) : (setSpare i st s).out = s.out := rfl
@[simp] theorem setSpare_pending (i : Spare) (st : SpareState) : (setSpare i st s).pending = s.pending := rfl

/-! ### putEntry -/

@[simp] theorem putEntry_channel (e : MapEntry) : (putEntry e s).channel = s.channel := rfl
@[simp] theorem putEntry_media (e : MapEntry) : (putEntry e s).media = s.media := rfl
@[simp] theorem putEntry_suspects (e : MapEntry) : (putEntry e s).suspects = s.suspects := rfl
@[simp] theorem putEntry_queue (e : MapEntry) : (putEntry e s).queue = s.queue := rfl
@[simp] theorem putEntry_journal (e : MapEntry) : (putEntry e s).journal = s.journal := rfl
@[simp] theorem putEntry_opState (e : MapEntry) : (putEntry e s).opState = s.opState := rfl
@[simp] theorem putEntry_haltCause (e : MapEntry) : (putEntry e s).haltCause = s.haltCause := rfl
@[simp] theorem putEntry_patrol (e : MapEntry) : (putEntry e s).patrol = s.patrol := rfl
@[simp] theorem putEntry_notices (e : MapEntry) : (putEntry e s).notices = s.notices := rfl
@[simp] theorem putEntry_port (e : MapEntry) : (putEntry e s).port = s.port := rfl
@[simp] theorem putEntry_settings (e : MapEntry) : (putEntry e s).settings = s.settings := rfl
@[simp] theorem putEntry_counters (e : MapEntry) : (putEntry e s).counters = s.counters := rfl
@[simp] theorem putEntry_straps (e : MapEntry) : (putEntry e s).straps = s.straps := rfl
@[simp] theorem putEntry_pins (e : MapEntry) : (putEntry e s).pins = s.pins := rfl
@[simp] theorem putEntry_out (e : MapEntry) : (putEntry e s).out = s.out := rfl
@[simp] theorem putEntry_pending (e : MapEntry) : (putEntry e s).pending = s.pending := rfl

/-! ### setSlot -/

@[simp] theorem setSlot_channel (id : SlotId) (slot : Slot) : (setSlot id slot s).channel = s.channel := rfl
@[simp] theorem setSlot_lineMap (id : SlotId) (slot : Slot) : (setSlot id slot s).lineMap = s.lineMap := rfl
@[simp] theorem setSlot_suspects (id : SlotId) (slot : Slot) : (setSlot id slot s).suspects = s.suspects := rfl
@[simp] theorem setSlot_queue (id : SlotId) (slot : Slot) : (setSlot id slot s).queue = s.queue := rfl
@[simp] theorem setSlot_journal (id : SlotId) (slot : Slot) : (setSlot id slot s).journal = s.journal := rfl
@[simp] theorem setSlot_opState (id : SlotId) (slot : Slot) : (setSlot id slot s).opState = s.opState := rfl
@[simp] theorem setSlot_haltCause (id : SlotId) (slot : Slot) : (setSlot id slot s).haltCause = s.haltCause := rfl
@[simp] theorem setSlot_patrol (id : SlotId) (slot : Slot) : (setSlot id slot s).patrol = s.patrol := rfl
@[simp] theorem setSlot_notices (id : SlotId) (slot : Slot) : (setSlot id slot s).notices = s.notices := rfl
@[simp] theorem setSlot_port (id : SlotId) (slot : Slot) : (setSlot id slot s).port = s.port := rfl
@[simp] theorem setSlot_settings (id : SlotId) (slot : Slot) : (setSlot id slot s).settings = s.settings := rfl
@[simp] theorem setSlot_counters (id : SlotId) (slot : Slot) : (setSlot id slot s).counters = s.counters := rfl
@[simp] theorem setSlot_straps (id : SlotId) (slot : Slot) : (setSlot id slot s).straps = s.straps := rfl
@[simp] theorem setSlot_pins (id : SlotId) (slot : Slot) : (setSlot id slot s).pins = s.pins := rfl
@[simp] theorem setSlot_out (id : SlotId) (slot : Slot) : (setSlot id slot s).out = s.out := rfl
@[simp] theorem setSlot_pending (id : SlotId) (slot : Slot) : (setSlot id slot s).pending = s.pending := rfl

/-! ### emitMedia -/

@[simp] theorem emitMedia_channel (op : MediaOp) : (emitMedia op s).channel = s.channel := rfl
@[simp] theorem emitMedia_lineMap (op : MediaOp) : (emitMedia op s).lineMap = s.lineMap := rfl
@[simp] theorem emitMedia_media (op : MediaOp) : (emitMedia op s).media = s.media := rfl
@[simp] theorem emitMedia_suspects (op : MediaOp) : (emitMedia op s).suspects = s.suspects := rfl
@[simp] theorem emitMedia_queue (op : MediaOp) : (emitMedia op s).queue = s.queue := rfl
@[simp] theorem emitMedia_journal (op : MediaOp) : (emitMedia op s).journal = s.journal := rfl
@[simp] theorem emitMedia_opState (op : MediaOp) : (emitMedia op s).opState = s.opState := rfl
@[simp] theorem emitMedia_haltCause (op : MediaOp) : (emitMedia op s).haltCause = s.haltCause := rfl
@[simp] theorem emitMedia_patrol (op : MediaOp) : (emitMedia op s).patrol = s.patrol := rfl
@[simp] theorem emitMedia_notices (op : MediaOp) : (emitMedia op s).notices = s.notices := rfl
@[simp] theorem emitMedia_port (op : MediaOp) : (emitMedia op s).port = s.port := rfl
@[simp] theorem emitMedia_settings (op : MediaOp) : (emitMedia op s).settings = s.settings := rfl
@[simp] theorem emitMedia_counters (op : MediaOp) : (emitMedia op s).counters = s.counters := rfl
@[simp] theorem emitMedia_straps (op : MediaOp) : (emitMedia op s).straps = s.straps := rfl
@[simp] theorem emitMedia_pins (op : MediaOp) : (emitMedia op s).pins = s.pins := rfl
@[simp] theorem emitMedia_pending (op : MediaOp) : (emitMedia op s).pending = s.pending := rfl

/-! ### emitCompletion -/

@[simp] theorem emitCompletion_channel (c : Completion) : (emitCompletion c s).channel = s.channel := rfl
@[simp] theorem emitCompletion_lineMap (c : Completion) : (emitCompletion c s).lineMap = s.lineMap := rfl
@[simp] theorem emitCompletion_media (c : Completion) : (emitCompletion c s).media = s.media := rfl
@[simp] theorem emitCompletion_suspects (c : Completion) : (emitCompletion c s).suspects = s.suspects := rfl
@[simp] theorem emitCompletion_queue (c : Completion) : (emitCompletion c s).queue = s.queue := rfl
@[simp] theorem emitCompletion_journal (c : Completion) : (emitCompletion c s).journal = s.journal := rfl
@[simp] theorem emitCompletion_opState (c : Completion) : (emitCompletion c s).opState = s.opState := rfl
@[simp] theorem emitCompletion_haltCause (c : Completion) : (emitCompletion c s).haltCause = s.haltCause := rfl
@[simp] theorem emitCompletion_patrol (c : Completion) : (emitCompletion c s).patrol = s.patrol := rfl
@[simp] theorem emitCompletion_notices (c : Completion) : (emitCompletion c s).notices = s.notices := rfl
@[simp] theorem emitCompletion_port (c : Completion) : (emitCompletion c s).port = s.port := rfl
@[simp] theorem emitCompletion_settings (c : Completion) : (emitCompletion c s).settings = s.settings := rfl
@[simp] theorem emitCompletion_counters (c : Completion) : (emitCompletion c s).counters = s.counters := rfl
@[simp] theorem emitCompletion_straps (c : Completion) : (emitCompletion c s).straps = s.straps := rfl
@[simp] theorem emitCompletion_pins (c : Completion) : (emitCompletion c s).pins = s.pins := rfl
@[simp] theorem emitCompletion_pending (c : Completion) : (emitCompletion c s).pending = s.pending := rfl

/-! ### clearOut -/

@[simp] theorem clearOut_channel : (clearOut s).channel = s.channel := rfl
@[simp] theorem clearOut_lineMap : (clearOut s).lineMap = s.lineMap := rfl
@[simp] theorem clearOut_media : (clearOut s).media = s.media := rfl
@[simp] theorem clearOut_suspects : (clearOut s).suspects = s.suspects := rfl
@[simp] theorem clearOut_queue : (clearOut s).queue = s.queue := rfl
@[simp] theorem clearOut_journal : (clearOut s).journal = s.journal := rfl
@[simp] theorem clearOut_opState : (clearOut s).opState = s.opState := rfl
@[simp] theorem clearOut_haltCause : (clearOut s).haltCause = s.haltCause := rfl
@[simp] theorem clearOut_patrol : (clearOut s).patrol = s.patrol := rfl
@[simp] theorem clearOut_notices : (clearOut s).notices = s.notices := rfl
@[simp] theorem clearOut_port : (clearOut s).port = s.port := rfl
@[simp] theorem clearOut_settings : (clearOut s).settings = s.settings := rfl
@[simp] theorem clearOut_counters : (clearOut s).counters = s.counters := rfl
@[simp] theorem clearOut_straps : (clearOut s).straps = s.straps := rfl
@[simp] theorem clearOut_pins : (clearOut s).pins = s.pins := rfl
@[simp] theorem clearOut_pending : (clearOut s).pending = s.pending := rfl

/-! ### emitAdmission -/

@[simp] theorem emitAdmission_channel (a : Admission) : (emitAdmission a s).channel = s.channel := rfl
@[simp] theorem emitAdmission_lineMap (a : Admission) : (emitAdmission a s).lineMap = s.lineMap := rfl
@[simp] theorem emitAdmission_media (a : Admission) : (emitAdmission a s).media = s.media := rfl
@[simp] theorem emitAdmission_suspects (a : Admission) : (emitAdmission a s).suspects = s.suspects := rfl
@[simp] theorem emitAdmission_queue (a : Admission) : (emitAdmission a s).queue = s.queue := rfl
@[simp] theorem emitAdmission_journal (a : Admission) : (emitAdmission a s).journal = s.journal := rfl
@[simp] theorem emitAdmission_opState (a : Admission) : (emitAdmission a s).opState = s.opState := rfl
@[simp] theorem emitAdmission_haltCause (a : Admission) : (emitAdmission a s).haltCause = s.haltCause := rfl
@[simp] theorem emitAdmission_patrol (a : Admission) : (emitAdmission a s).patrol = s.patrol := rfl
@[simp] theorem emitAdmission_notices (a : Admission) : (emitAdmission a s).notices = s.notices := rfl
@[simp] theorem emitAdmission_port (a : Admission) : (emitAdmission a s).port = s.port := rfl
@[simp] theorem emitAdmission_settings (a : Admission) : (emitAdmission a s).settings = s.settings := rfl
@[simp] theorem emitAdmission_counters (a : Admission) : (emitAdmission a s).counters = s.counters := rfl
@[simp] theorem emitAdmission_straps (a : Admission) : (emitAdmission a s).straps = s.straps := rfl
@[simp] theorem emitAdmission_pins (a : Admission) : (emitAdmission a s).pins = s.pins := rfl
@[simp] theorem emitAdmission_pending (a : Admission) : (emitAdmission a s).pending = s.pending := rfl

/-! ### receive -/

@[simp] theorem receive_channel (f : Frame) : (receive f s).channel = s.channel := rfl
@[simp] theorem receive_lineMap (f : Frame) : (receive f s).lineMap = s.lineMap := rfl
@[simp] theorem receive_media (f : Frame) : (receive f s).media = s.media := rfl
@[simp] theorem receive_suspects (f : Frame) : (receive f s).suspects = s.suspects := rfl
@[simp] theorem receive_queue (f : Frame) : (receive f s).queue = s.queue := rfl
@[simp] theorem receive_journal (f : Frame) : (receive f s).journal = s.journal := rfl
@[simp] theorem receive_opState (f : Frame) : (receive f s).opState = s.opState := rfl
@[simp] theorem receive_haltCause (f : Frame) : (receive f s).haltCause = s.haltCause := rfl
@[simp] theorem receive_patrol (f : Frame) : (receive f s).patrol = s.patrol := rfl
@[simp] theorem receive_notices (f : Frame) : (receive f s).notices = s.notices := rfl
@[simp] theorem receive_settings (f : Frame) : (receive f s).settings = s.settings := rfl
@[simp] theorem receive_counters (f : Frame) : (receive f s).counters = s.counters := rfl
@[simp] theorem receive_straps (f : Frame) : (receive f s).straps = s.straps := rfl
@[simp] theorem receive_pins (f : Frame) : (receive f s).pins = s.pins := rfl
@[simp] theorem receive_out (f : Frame) : (receive f s).out = s.out := rfl
@[simp] theorem receive_pending (f : Frame) : (receive f s).pending = s.pending := rfl

/-! ### updateEntry -/

@[simp] theorem updateEntry_lineMap (tag : Tag) (f : Entry → Entry) : (updateEntry tag f s).lineMap = s.lineMap := rfl
@[simp] theorem updateEntry_media (tag : Tag) (f : Entry → Entry) : (updateEntry tag f s).media = s.media := rfl
@[simp] theorem updateEntry_suspects (tag : Tag) (f : Entry → Entry) : (updateEntry tag f s).suspects = s.suspects := rfl
@[simp] theorem updateEntry_queue (tag : Tag) (f : Entry → Entry) : (updateEntry tag f s).queue = s.queue := rfl
@[simp] theorem updateEntry_journal (tag : Tag) (f : Entry → Entry) : (updateEntry tag f s).journal = s.journal := rfl
@[simp] theorem updateEntry_opState (tag : Tag) (f : Entry → Entry) : (updateEntry tag f s).opState = s.opState := rfl
@[simp] theorem updateEntry_haltCause (tag : Tag) (f : Entry → Entry) : (updateEntry tag f s).haltCause = s.haltCause := rfl
@[simp] theorem updateEntry_patrol (tag : Tag) (f : Entry → Entry) : (updateEntry tag f s).patrol = s.patrol := rfl
@[simp] theorem updateEntry_notices (tag : Tag) (f : Entry → Entry) : (updateEntry tag f s).notices = s.notices := rfl
@[simp] theorem updateEntry_port (tag : Tag) (f : Entry → Entry) : (updateEntry tag f s).port = s.port := rfl
@[simp] theorem updateEntry_settings (tag : Tag) (f : Entry → Entry) : (updateEntry tag f s).settings = s.settings := rfl
@[simp] theorem updateEntry_counters (tag : Tag) (f : Entry → Entry) : (updateEntry tag f s).counters = s.counters := rfl
@[simp] theorem updateEntry_straps (tag : Tag) (f : Entry → Entry) : (updateEntry tag f s).straps = s.straps := rfl
@[simp] theorem updateEntry_pins (tag : Tag) (f : Entry → Entry) : (updateEntry tag f s).pins = s.pins := rfl
@[simp] theorem updateEntry_out (tag : Tag) (f : Entry → Entry) : (updateEntry tag f s).out = s.out := rfl
@[simp] theorem updateEntry_pending (tag : Tag) (f : Entry → Entry) : (updateEntry tag f s).pending = s.pending := rfl

/-! ### setEntryState -/

@[simp] theorem setEntryState_lineMap (tag : Tag) (st : EntryState) : (setEntryState tag st s).lineMap = s.lineMap := rfl
@[simp] theorem setEntryState_media (tag : Tag) (st : EntryState) : (setEntryState tag st s).media = s.media := rfl
@[simp] theorem setEntryState_suspects (tag : Tag) (st : EntryState) : (setEntryState tag st s).suspects = s.suspects := rfl
@[simp] theorem setEntryState_queue (tag : Tag) (st : EntryState) : (setEntryState tag st s).queue = s.queue := rfl
@[simp] theorem setEntryState_journal (tag : Tag) (st : EntryState) : (setEntryState tag st s).journal = s.journal := rfl
@[simp] theorem setEntryState_opState (tag : Tag) (st : EntryState) : (setEntryState tag st s).opState = s.opState := rfl
@[simp] theorem setEntryState_haltCause (tag : Tag) (st : EntryState) : (setEntryState tag st s).haltCause = s.haltCause := rfl
@[simp] theorem setEntryState_patrol (tag : Tag) (st : EntryState) : (setEntryState tag st s).patrol = s.patrol := rfl
@[simp] theorem setEntryState_notices (tag : Tag) (st : EntryState) : (setEntryState tag st s).notices = s.notices := rfl
@[simp] theorem setEntryState_port (tag : Tag) (st : EntryState) : (setEntryState tag st s).port = s.port := rfl
@[simp] theorem setEntryState_settings (tag : Tag) (st : EntryState) : (setEntryState tag st s).settings = s.settings := rfl
@[simp] theorem setEntryState_counters (tag : Tag) (st : EntryState) : (setEntryState tag st s).counters = s.counters := rfl
@[simp] theorem setEntryState_straps (tag : Tag) (st : EntryState) : (setEntryState tag st s).straps = s.straps := rfl
@[simp] theorem setEntryState_pins (tag : Tag) (st : EntryState) : (setEntryState tag st s).pins = s.pins := rfl
@[simp] theorem setEntryState_out (tag : Tag) (st : EntryState) : (setEntryState tag st s).out = s.out := rfl
@[simp] theorem setEntryState_pending (tag : Tag) (st : EntryState) : (setEntryState tag st s).pending = s.pending := rfl

/-! ### lockReleased -/

@[simp] theorem lockReleased_lineMap (hostLine : Nat) : (lockReleased hostLine s).lineMap = s.lineMap := rfl
@[simp] theorem lockReleased_media (hostLine : Nat) : (lockReleased hostLine s).media = s.media := rfl
@[simp] theorem lockReleased_suspects (hostLine : Nat) : (lockReleased hostLine s).suspects = s.suspects := rfl
@[simp] theorem lockReleased_queue (hostLine : Nat) : (lockReleased hostLine s).queue = s.queue := rfl
@[simp] theorem lockReleased_journal (hostLine : Nat) : (lockReleased hostLine s).journal = s.journal := rfl
@[simp] theorem lockReleased_opState (hostLine : Nat) : (lockReleased hostLine s).opState = s.opState := rfl
@[simp] theorem lockReleased_haltCause (hostLine : Nat) : (lockReleased hostLine s).haltCause = s.haltCause := rfl
@[simp] theorem lockReleased_patrol (hostLine : Nat) : (lockReleased hostLine s).patrol = s.patrol := rfl
@[simp] theorem lockReleased_notices (hostLine : Nat) : (lockReleased hostLine s).notices = s.notices := rfl
@[simp] theorem lockReleased_port (hostLine : Nat) : (lockReleased hostLine s).port = s.port := rfl
@[simp] theorem lockReleased_settings (hostLine : Nat) : (lockReleased hostLine s).settings = s.settings := rfl
@[simp] theorem lockReleased_counters (hostLine : Nat) : (lockReleased hostLine s).counters = s.counters := rfl
@[simp] theorem lockReleased_straps (hostLine : Nat) : (lockReleased hostLine s).straps = s.straps := rfl
@[simp] theorem lockReleased_pins (hostLine : Nat) : (lockReleased hostLine s).pins = s.pins := rfl
@[simp] theorem lockReleased_out (hostLine : Nat) : (lockReleased hostLine s).out = s.out := rfl
@[simp] theorem lockReleased_pending (hostLine : Nat) : (lockReleased hostLine s).pending = s.pending := rfl

/-! ### removeSuspect -/

@[simp] theorem removeSuspect_channel (hostLine : Nat) : (removeSuspect hostLine s).channel = s.channel := rfl
@[simp] theorem removeSuspect_lineMap (hostLine : Nat) : (removeSuspect hostLine s).lineMap = s.lineMap := rfl
@[simp] theorem removeSuspect_media (hostLine : Nat) : (removeSuspect hostLine s).media = s.media := rfl
@[simp] theorem removeSuspect_queue (hostLine : Nat) : (removeSuspect hostLine s).queue = s.queue := rfl
@[simp] theorem removeSuspect_journal (hostLine : Nat) : (removeSuspect hostLine s).journal = s.journal := rfl
@[simp] theorem removeSuspect_opState (hostLine : Nat) : (removeSuspect hostLine s).opState = s.opState := rfl
@[simp] theorem removeSuspect_haltCause (hostLine : Nat) : (removeSuspect hostLine s).haltCause = s.haltCause := rfl
@[simp] theorem removeSuspect_patrol (hostLine : Nat) : (removeSuspect hostLine s).patrol = s.patrol := rfl
@[simp] theorem removeSuspect_notices (hostLine : Nat) : (removeSuspect hostLine s).notices = s.notices := rfl
@[simp] theorem removeSuspect_port (hostLine : Nat) : (removeSuspect hostLine s).port = s.port := rfl
@[simp] theorem removeSuspect_settings (hostLine : Nat) : (removeSuspect hostLine s).settings = s.settings := rfl
@[simp] theorem removeSuspect_counters (hostLine : Nat) : (removeSuspect hostLine s).counters = s.counters := rfl
@[simp] theorem removeSuspect_straps (hostLine : Nat) : (removeSuspect hostLine s).straps = s.straps := rfl
@[simp] theorem removeSuspect_pins (hostLine : Nat) : (removeSuspect hostLine s).pins = s.pins := rfl
@[simp] theorem removeSuspect_out (hostLine : Nat) : (removeSuspect hostLine s).out = s.out := rfl
@[simp] theorem removeSuspect_pending (hostLine : Nat) : (removeSuspect hostLine s).pending = s.pending := rfl

/-! ### deferSuspect -/

@[simp] theorem deferSuspect_channel (hostLine : Nat) : (deferSuspect hostLine s).channel = s.channel := rfl
@[simp] theorem deferSuspect_lineMap (hostLine : Nat) : (deferSuspect hostLine s).lineMap = s.lineMap := rfl
@[simp] theorem deferSuspect_media (hostLine : Nat) : (deferSuspect hostLine s).media = s.media := rfl
@[simp] theorem deferSuspect_queue (hostLine : Nat) : (deferSuspect hostLine s).queue = s.queue := rfl
@[simp] theorem deferSuspect_journal (hostLine : Nat) : (deferSuspect hostLine s).journal = s.journal := rfl
@[simp] theorem deferSuspect_opState (hostLine : Nat) : (deferSuspect hostLine s).opState = s.opState := rfl
@[simp] theorem deferSuspect_haltCause (hostLine : Nat) : (deferSuspect hostLine s).haltCause = s.haltCause := rfl
@[simp] theorem deferSuspect_patrol (hostLine : Nat) : (deferSuspect hostLine s).patrol = s.patrol := rfl
@[simp] theorem deferSuspect_notices (hostLine : Nat) : (deferSuspect hostLine s).notices = s.notices := rfl
@[simp] theorem deferSuspect_port (hostLine : Nat) : (deferSuspect hostLine s).port = s.port := rfl
@[simp] theorem deferSuspect_settings (hostLine : Nat) : (deferSuspect hostLine s).settings = s.settings := rfl
@[simp] theorem deferSuspect_counters (hostLine : Nat) : (deferSuspect hostLine s).counters = s.counters := rfl
@[simp] theorem deferSuspect_straps (hostLine : Nat) : (deferSuspect hostLine s).straps = s.straps := rfl
@[simp] theorem deferSuspect_pins (hostLine : Nat) : (deferSuspect hostLine s).pins = s.pins := rfl
@[simp] theorem deferSuspect_out (hostLine : Nat) : (deferSuspect hostLine s).out = s.out := rfl
@[simp] theorem deferSuspect_pending (hostLine : Nat) : (deferSuspect hostLine s).pending = s.pending := rfl

/-! ### adopt -/

@[simp] theorem adopt_channel (hostLine : Nat) (data : LineData) (tag : Option Tag) : (adopt hostLine data tag s).channel = s.channel := rfl
@[simp] theorem adopt_lineMap (hostLine : Nat) (data : LineData) (tag : Option Tag) : (adopt hostLine data tag s).lineMap = s.lineMap := rfl
@[simp] theorem adopt_media (hostLine : Nat) (data : LineData) (tag : Option Tag) : (adopt hostLine data tag s).media = s.media := rfl
@[simp] theorem adopt_suspects (hostLine : Nat) (data : LineData) (tag : Option Tag) : (adopt hostLine data tag s).suspects = s.suspects := rfl
@[simp] theorem adopt_journal (hostLine : Nat) (data : LineData) (tag : Option Tag) : (adopt hostLine data tag s).journal = s.journal := rfl
@[simp] theorem adopt_opState (hostLine : Nat) (data : LineData) (tag : Option Tag) : (adopt hostLine data tag s).opState = s.opState := rfl
@[simp] theorem adopt_haltCause (hostLine : Nat) (data : LineData) (tag : Option Tag) : (adopt hostLine data tag s).haltCause = s.haltCause := rfl
@[simp] theorem adopt_patrol (hostLine : Nat) (data : LineData) (tag : Option Tag) : (adopt hostLine data tag s).patrol = s.patrol := rfl
@[simp] theorem adopt_notices (hostLine : Nat) (data : LineData) (tag : Option Tag) : (adopt hostLine data tag s).notices = s.notices := rfl
@[simp] theorem adopt_port (hostLine : Nat) (data : LineData) (tag : Option Tag) : (adopt hostLine data tag s).port = s.port := rfl
@[simp] theorem adopt_settings (hostLine : Nat) (data : LineData) (tag : Option Tag) : (adopt hostLine data tag s).settings = s.settings := rfl
@[simp] theorem adopt_counters (hostLine : Nat) (data : LineData) (tag : Option Tag) : (adopt hostLine data tag s).counters = s.counters := rfl
@[simp] theorem adopt_straps (hostLine : Nat) (data : LineData) (tag : Option Tag) : (adopt hostLine data tag s).straps = s.straps := rfl
@[simp] theorem adopt_pins (hostLine : Nat) (data : LineData) (tag : Option Tag) : (adopt hostLine data tag s).pins = s.pins := rfl
@[simp] theorem adopt_out (hostLine : Nat) (data : LineData) (tag : Option Tag) : (adopt hostLine data tag s).out = s.out := rfl
@[simp] theorem adopt_pending (hostLine : Nat) (data : LineData) (tag : Option Tag) : (adopt hostLine data tag s).pending = s.pending := rfl

/-! ### setMark -/

@[simp] theorem setMark_channel : (setMark s).channel = s.channel := rfl
@[simp] theorem setMark_lineMap : (setMark s).lineMap = s.lineMap := rfl
@[simp] theorem setMark_media : (setMark s).media = s.media := rfl
@[simp] theorem setMark_suspects : (setMark s).suspects = s.suspects := rfl
@[simp] theorem setMark_queue : (setMark s).queue = s.queue := rfl
@[simp] theorem setMark_journal : (setMark s).journal = s.journal := rfl
@[simp] theorem setMark_opState : (setMark s).opState = s.opState := rfl
@[simp] theorem setMark_haltCause : (setMark s).haltCause = s.haltCause := rfl
@[simp] theorem setMark_notices : (setMark s).notices = s.notices := rfl
@[simp] theorem setMark_port : (setMark s).port = s.port := rfl
@[simp] theorem setMark_settings : (setMark s).settings = s.settings := rfl
@[simp] theorem setMark_counters : (setMark s).counters = s.counters := rfl
@[simp] theorem setMark_straps : (setMark s).straps = s.straps := rfl
@[simp] theorem setMark_pins : (setMark s).pins = s.pins := rfl
@[simp] theorem setMark_out : (setMark s).out = s.out := rfl
@[simp] theorem setMark_pending : (setMark s).pending = s.pending := rfl

/-! ### tallySkipped -/

@[simp] theorem tallySkipped_channel : (tallySkipped s).channel = s.channel := rfl
@[simp] theorem tallySkipped_lineMap : (tallySkipped s).lineMap = s.lineMap := rfl
@[simp] theorem tallySkipped_media : (tallySkipped s).media = s.media := rfl
@[simp] theorem tallySkipped_suspects : (tallySkipped s).suspects = s.suspects := rfl
@[simp] theorem tallySkipped_queue : (tallySkipped s).queue = s.queue := rfl
@[simp] theorem tallySkipped_journal : (tallySkipped s).journal = s.journal := rfl
@[simp] theorem tallySkipped_opState : (tallySkipped s).opState = s.opState := rfl
@[simp] theorem tallySkipped_haltCause : (tallySkipped s).haltCause = s.haltCause := rfl
@[simp] theorem tallySkipped_notices : (tallySkipped s).notices = s.notices := rfl
@[simp] theorem tallySkipped_port : (tallySkipped s).port = s.port := rfl
@[simp] theorem tallySkipped_settings : (tallySkipped s).settings = s.settings := rfl
@[simp] theorem tallySkipped_counters : (tallySkipped s).counters = s.counters := rfl
@[simp] theorem tallySkipped_straps : (tallySkipped s).straps = s.straps := rfl
@[simp] theorem tallySkipped_pins : (tallySkipped s).pins = s.pins := rfl
@[simp] theorem tallySkipped_out : (tallySkipped s).out = s.out := rfl
@[simp] theorem tallySkipped_pending : (tallySkipped s).pending = s.pending := rfl

/-! ### countSkipped -/

@[simp] theorem countSkipped_channel : (countSkipped s).channel = s.channel := rfl
@[simp] theorem countSkipped_lineMap : (countSkipped s).lineMap = s.lineMap := rfl
@[simp] theorem countSkipped_media : (countSkipped s).media = s.media := rfl
@[simp] theorem countSkipped_suspects : (countSkipped s).suspects = s.suspects := rfl
@[simp] theorem countSkipped_queue : (countSkipped s).queue = s.queue := rfl
@[simp] theorem countSkipped_journal : (countSkipped s).journal = s.journal := rfl
@[simp] theorem countSkipped_opState : (countSkipped s).opState = s.opState := rfl
@[simp] theorem countSkipped_haltCause : (countSkipped s).haltCause = s.haltCause := rfl
@[simp] theorem countSkipped_patrol : (countSkipped s).patrol = s.patrol := rfl
@[simp] theorem countSkipped_notices : (countSkipped s).notices = s.notices := rfl
@[simp] theorem countSkipped_port : (countSkipped s).port = s.port := rfl
@[simp] theorem countSkipped_settings : (countSkipped s).settings = s.settings := rfl
@[simp] theorem countSkipped_straps : (countSkipped s).straps = s.straps := rfl
@[simp] theorem countSkipped_pins : (countSkipped s).pins = s.pins := rfl
@[simp] theorem countSkipped_out : (countSkipped s).out = s.out := rfl
@[simp] theorem countSkipped_pending : (countSkipped s).pending = s.pending := rfl

/-! ### countFailed -/

@[simp] theorem countFailed_channel : (countFailed s).channel = s.channel := rfl
@[simp] theorem countFailed_lineMap : (countFailed s).lineMap = s.lineMap := rfl
@[simp] theorem countFailed_media : (countFailed s).media = s.media := rfl
@[simp] theorem countFailed_suspects : (countFailed s).suspects = s.suspects := rfl
@[simp] theorem countFailed_queue : (countFailed s).queue = s.queue := rfl
@[simp] theorem countFailed_journal : (countFailed s).journal = s.journal := rfl
@[simp] theorem countFailed_opState : (countFailed s).opState = s.opState := rfl
@[simp] theorem countFailed_haltCause : (countFailed s).haltCause = s.haltCause := rfl
@[simp] theorem countFailed_patrol : (countFailed s).patrol = s.patrol := rfl
@[simp] theorem countFailed_notices : (countFailed s).notices = s.notices := rfl
@[simp] theorem countFailed_port : (countFailed s).port = s.port := rfl
@[simp] theorem countFailed_settings : (countFailed s).settings = s.settings := rfl
@[simp] theorem countFailed_straps : (countFailed s).straps = s.straps := rfl
@[simp] theorem countFailed_pins : (countFailed s).pins = s.pins := rfl
@[simp] theorem countFailed_out : (countFailed s).out = s.out := rfl
@[simp] theorem countFailed_pending : (countFailed s).pending = s.pending := rfl

/-! ### countDiscarded -/

@[simp] theorem countDiscarded_channel : (countDiscarded s).channel = s.channel := rfl
@[simp] theorem countDiscarded_lineMap : (countDiscarded s).lineMap = s.lineMap := rfl
@[simp] theorem countDiscarded_media : (countDiscarded s).media = s.media := rfl
@[simp] theorem countDiscarded_suspects : (countDiscarded s).suspects = s.suspects := rfl
@[simp] theorem countDiscarded_queue : (countDiscarded s).queue = s.queue := rfl
@[simp] theorem countDiscarded_journal : (countDiscarded s).journal = s.journal := rfl
@[simp] theorem countDiscarded_opState : (countDiscarded s).opState = s.opState := rfl
@[simp] theorem countDiscarded_haltCause : (countDiscarded s).haltCause = s.haltCause := rfl
@[simp] theorem countDiscarded_patrol : (countDiscarded s).patrol = s.patrol := rfl
@[simp] theorem countDiscarded_notices : (countDiscarded s).notices = s.notices := rfl
@[simp] theorem countDiscarded_port : (countDiscarded s).port = s.port := rfl
@[simp] theorem countDiscarded_settings : (countDiscarded s).settings = s.settings := rfl
@[simp] theorem countDiscarded_straps : (countDiscarded s).straps = s.straps := rfl
@[simp] theorem countDiscarded_pins : (countDiscarded s).pins = s.pins := rfl
@[simp] theorem countDiscarded_out : (countDiscarded s).out = s.out := rfl
@[simp] theorem countDiscarded_pending : (countDiscarded s).pending = s.pending := rfl

/-! ### countTimeout -/

@[simp] theorem countTimeout_channel : (countTimeout s).channel = s.channel := rfl
@[simp] theorem countTimeout_lineMap : (countTimeout s).lineMap = s.lineMap := rfl
@[simp] theorem countTimeout_media : (countTimeout s).media = s.media := rfl
@[simp] theorem countTimeout_suspects : (countTimeout s).suspects = s.suspects := rfl
@[simp] theorem countTimeout_queue : (countTimeout s).queue = s.queue := rfl
@[simp] theorem countTimeout_journal : (countTimeout s).journal = s.journal := rfl
@[simp] theorem countTimeout_opState : (countTimeout s).opState = s.opState := rfl
@[simp] theorem countTimeout_haltCause : (countTimeout s).haltCause = s.haltCause := rfl
@[simp] theorem countTimeout_patrol : (countTimeout s).patrol = s.patrol := rfl
@[simp] theorem countTimeout_notices : (countTimeout s).notices = s.notices := rfl
@[simp] theorem countTimeout_port : (countTimeout s).port = s.port := rfl
@[simp] theorem countTimeout_settings : (countTimeout s).settings = s.settings := rfl
@[simp] theorem countTimeout_straps : (countTimeout s).straps = s.straps := rfl
@[simp] theorem countTimeout_pins : (countTimeout s).pins = s.pins := rfl
@[simp] theorem countTimeout_out : (countTimeout s).out = s.out := rfl
@[simp] theorem countTimeout_pending : (countTimeout s).pending = s.pending := rfl

/-! ### countStep -/

@[simp] theorem countStep_channel : (countStep s).channel = s.channel := rfl
@[simp] theorem countStep_lineMap : (countStep s).lineMap = s.lineMap := rfl
@[simp] theorem countStep_media : (countStep s).media = s.media := rfl
@[simp] theorem countStep_suspects : (countStep s).suspects = s.suspects := rfl
@[simp] theorem countStep_queue : (countStep s).queue = s.queue := rfl
@[simp] theorem countStep_journal : (countStep s).journal = s.journal := rfl
@[simp] theorem countStep_opState : (countStep s).opState = s.opState := rfl
@[simp] theorem countStep_haltCause : (countStep s).haltCause = s.haltCause := rfl
@[simp] theorem countStep_patrol : (countStep s).patrol = s.patrol := rfl
@[simp] theorem countStep_notices : (countStep s).notices = s.notices := rfl
@[simp] theorem countStep_port : (countStep s).port = s.port := rfl
@[simp] theorem countStep_settings : (countStep s).settings = s.settings := rfl
@[simp] theorem countStep_straps : (countStep s).straps = s.straps := rfl
@[simp] theorem countStep_pins : (countStep s).pins = s.pins := rfl
@[simp] theorem countStep_out : (countStep s).out = s.out := rfl
@[simp] theorem countStep_pending : (countStep s).pending = s.pending := rfl

/-! ### missExpiry -/

@[simp] theorem missExpiry_channel : (missExpiry s).channel = s.channel := rfl
@[simp] theorem missExpiry_lineMap : (missExpiry s).lineMap = s.lineMap := rfl
@[simp] theorem missExpiry_media : (missExpiry s).media = s.media := rfl
@[simp] theorem missExpiry_suspects : (missExpiry s).suspects = s.suspects := rfl
@[simp] theorem missExpiry_queue : (missExpiry s).queue = s.queue := rfl
@[simp] theorem missExpiry_journal : (missExpiry s).journal = s.journal := rfl
@[simp] theorem missExpiry_opState : (missExpiry s).opState = s.opState := rfl
@[simp] theorem missExpiry_haltCause : (missExpiry s).haltCause = s.haltCause := rfl
@[simp] theorem missExpiry_patrol : (missExpiry s).patrol = s.patrol := rfl
@[simp] theorem missExpiry_notices : (missExpiry s).notices = s.notices := rfl
@[simp] theorem missExpiry_port : (missExpiry s).port = s.port := rfl
@[simp] theorem missExpiry_settings : (missExpiry s).settings = s.settings := rfl
@[simp] theorem missExpiry_straps : (missExpiry s).straps = s.straps := rfl
@[simp] theorem missExpiry_pins : (missExpiry s).pins = s.pins := rfl
@[simp] theorem missExpiry_out : (missExpiry s).out = s.out := rfl
@[simp] theorem missExpiry_pending : (missExpiry s).pending = s.pending := rfl

/-! ### Parts of a block that an update leaves as they are -/

@[simp] theorem setSpare_entries (i : Spare) (st : SpareState) :
    (setSpare i st s).lineMap.entries = s.lineMap.entries := rfl
@[simp] theorem putEntry_spares (e : MapEntry) : (putEntry e s).lineMap.spares = s.lineMap.spares := rfl
@[simp] theorem setSlot_passedOver (id : SlotId) (slot : Slot) :
    (setSlot id slot s).media.passedOver = s.media.passedOver := rfl
@[simp] theorem updateEntry_arrival (tag : Tag) (f : Entry → Entry) :
    (updateEntry tag f s).channel.arrival = s.channel.arrival := rfl
@[simp] theorem updateEntry_residuals (tag : Tag) (f : Entry → Entry) :
    (updateEntry tag f s).channel.residuals = s.channel.residuals := rfl
@[simp] theorem setEntryState_arrival (tag : Tag) (st : EntryState) :
    (setEntryState tag st s).channel.arrival = s.channel.arrival := rfl
@[simp] theorem setEntryState_residuals (tag : Tag) (st : EntryState) :
    (setEntryState tag st s).channel.residuals = s.channel.residuals := rfl
@[simp] theorem clearOut_out : (clearOut s).out = Outputs.none := rfl
@[simp] theorem clearOut_clearOut : clearOut (clearOut s) = clearOut s := rfl

/-! ### Alert requests, notices and decode counts -/

@[simp] theorem alertRequest_channel : (alertRequest s).channel = s.channel := by unfold alertRequest; split <;> rfl
@[simp] theorem alertRequest_lineMap : (alertRequest s).lineMap = s.lineMap := by unfold alertRequest; split <;> rfl
@[simp] theorem alertRequest_media : (alertRequest s).media = s.media := by unfold alertRequest; split <;> rfl
@[simp] theorem alertRequest_suspects : (alertRequest s).suspects = s.suspects := by unfold alertRequest; split <;> rfl
@[simp] theorem alertRequest_queue : (alertRequest s).queue = s.queue := by unfold alertRequest; split <;> rfl
@[simp] theorem alertRequest_journal : (alertRequest s).journal = s.journal := by unfold alertRequest; split <;> rfl
@[simp] theorem alertRequest_opState : (alertRequest s).opState = s.opState := by unfold alertRequest; split <;> rfl
@[simp] theorem alertRequest_haltCause : (alertRequest s).haltCause = s.haltCause := by unfold alertRequest; split <;> rfl
@[simp] theorem alertRequest_patrol : (alertRequest s).patrol = s.patrol := by unfold alertRequest; split <;> rfl
@[simp] theorem alertRequest_port : (alertRequest s).port = s.port := by unfold alertRequest; split <;> rfl
@[simp] theorem alertRequest_settings : (alertRequest s).settings = s.settings := by unfold alertRequest; split <;> rfl
@[simp] theorem alertRequest_counters : (alertRequest s).counters = s.counters := by unfold alertRequest; split <;> rfl
@[simp] theorem alertRequest_straps : (alertRequest s).straps = s.straps := by unfold alertRequest; split <;> rfl
@[simp] theorem alertRequest_pins : (alertRequest s).pins = s.pins := by unfold alertRequest; split <;> rfl
@[simp] theorem alertRequest_out : (alertRequest s).out = s.out := by unfold alertRequest; split <;> rfl
@[simp] theorem alertRequest_pending : (alertRequest s).pending = s.pending := by unfold alertRequest; split <;> rfl

@[simp] theorem raise_channel (kind hostLine spare oldSpare values) :
    (raise kind hostLine spare oldSpare values s).channel = s.channel := by
  unfold raise; dsimp only; split <;> [(split <;> simp); rfl]
@[simp] theorem raise_lineMap (kind hostLine spare oldSpare values) :
    (raise kind hostLine spare oldSpare values s).lineMap = s.lineMap := by
  unfold raise; dsimp only; split <;> [(split <;> simp); rfl]
@[simp] theorem raise_media (kind hostLine spare oldSpare values) :
    (raise kind hostLine spare oldSpare values s).media = s.media := by
  unfold raise; dsimp only; split <;> [(split <;> simp); rfl]
@[simp] theorem raise_suspects (kind hostLine spare oldSpare values) :
    (raise kind hostLine spare oldSpare values s).suspects = s.suspects := by
  unfold raise; dsimp only; split <;> [(split <;> simp); rfl]
@[simp] theorem raise_queue (kind hostLine spare oldSpare values) :
    (raise kind hostLine spare oldSpare values s).queue = s.queue := by
  unfold raise; dsimp only; split <;> [(split <;> simp); rfl]
@[simp] theorem raise_journal (kind hostLine spare oldSpare values) :
    (raise kind hostLine spare oldSpare values s).journal = s.journal := by
  unfold raise; dsimp only; split <;> [(split <;> simp); rfl]
@[simp] theorem raise_opState (kind hostLine spare oldSpare values) :
    (raise kind hostLine spare oldSpare values s).opState = s.opState := by
  unfold raise; dsimp only; split <;> [(split <;> simp); rfl]
@[simp] theorem raise_haltCause (kind hostLine spare oldSpare values) :
    (raise kind hostLine spare oldSpare values s).haltCause = s.haltCause := by
  unfold raise; dsimp only; split <;> [(split <;> simp); rfl]
@[simp] theorem raise_patrol (kind hostLine spare oldSpare values) :
    (raise kind hostLine spare oldSpare values s).patrol = s.patrol := by
  unfold raise; dsimp only; split <;> [(split <;> simp); rfl]
@[simp] theorem raise_port (kind hostLine spare oldSpare values) :
    (raise kind hostLine spare oldSpare values s).port = s.port := by
  unfold raise; dsimp only; split <;> [(split <;> simp); rfl]
@[simp] theorem raise_settings (kind hostLine spare oldSpare values) :
    (raise kind hostLine spare oldSpare values s).settings = s.settings := by
  unfold raise; dsimp only; split <;> [(split <;> simp); rfl]
@[simp] theorem raise_straps (kind hostLine spare oldSpare values) :
    (raise kind hostLine spare oldSpare values s).straps = s.straps := by
  unfold raise; dsimp only; split <;> [(split <;> simp); rfl]
@[simp] theorem raise_pins (kind hostLine spare oldSpare values) :
    (raise kind hostLine spare oldSpare values s).pins = s.pins := by
  unfold raise; dsimp only; split <;> [(split <;> simp); rfl]
@[simp] theorem raise_out (kind hostLine spare oldSpare values) :
    (raise kind hostLine spare oldSpare values s).out = s.out := by
  unfold raise; dsimp only; split <;> [(split <;> simp); rfl]
@[simp] theorem raise_pending (kind hostLine spare oldSpare values) :
    (raise kind hostLine spare oldSpare values s).pending = s.pending := by
  unfold raise; dsimp only; split <;> [(split <;> simp); rfl]

@[simp] theorem countDecode_channel (c : DecodeClass) : (countDecode c s).channel = s.channel := by cases c <;> rfl
@[simp] theorem countDecode_lineMap (c : DecodeClass) : (countDecode c s).lineMap = s.lineMap := by cases c <;> rfl
@[simp] theorem countDecode_media (c : DecodeClass) : (countDecode c s).media = s.media := by cases c <;> rfl
@[simp] theorem countDecode_suspects (c : DecodeClass) : (countDecode c s).suspects = s.suspects := by cases c <;> rfl
@[simp] theorem countDecode_queue (c : DecodeClass) : (countDecode c s).queue = s.queue := by cases c <;> rfl
@[simp] theorem countDecode_journal (c : DecodeClass) : (countDecode c s).journal = s.journal := by cases c <;> rfl
@[simp] theorem countDecode_opState (c : DecodeClass) : (countDecode c s).opState = s.opState := by cases c <;> rfl
@[simp] theorem countDecode_haltCause (c : DecodeClass) : (countDecode c s).haltCause = s.haltCause := by cases c <;> rfl
@[simp] theorem countDecode_patrol (c : DecodeClass) : (countDecode c s).patrol = s.patrol := by cases c <;> rfl
@[simp] theorem countDecode_notices (c : DecodeClass) : (countDecode c s).notices = s.notices := by cases c <;> rfl
@[simp] theorem countDecode_port (c : DecodeClass) : (countDecode c s).port = s.port := by cases c <;> rfl
@[simp] theorem countDecode_settings (c : DecodeClass) : (countDecode c s).settings = s.settings := by cases c <;> rfl
@[simp] theorem countDecode_straps (c : DecodeClass) : (countDecode c s).straps = s.straps := by cases c <;> rfl
@[simp] theorem countDecode_pins (c : DecodeClass) : (countDecode c s).pins = s.pins := by cases c <;> rfl
@[simp] theorem countDecode_out (c : DecodeClass) : (countDecode c s).out = s.out := by cases c <;> rfl
@[simp] theorem countDecode_pending (c : DecodeClass) : (countDecode c s).pending = s.pending := by cases c <;> rfl

end Sys2Proof.Machine
end

