-- ==== Sys2Proof/Tests/Slice0.lean ====
section
/-! SUPPORT. Sys2Proof/Tests/Slice0.lean: the model's own tests: the checks of WellFormed on ill-formed terms, one step of each
command with the result the manual gives (the example or rule is named before each), and a witness for the hypotheses of each
statement of Certificates/Slice0/Obligations.lean. -/

namespace Sys2Proof.Tests

-- One test after another: tests checked side by side would each hold a thread's stack.
set_option Elab.async false

open Sys2Proof.Machine Sys2Proof.Safety

/-! ### Helpers -/

/-- The state after one command that completes; the state itself where it does not. -/
def after (c : Instr) (s : State) : State :=
  match exec c s with
  | .next t => t
  | _ => s

/-- A READY part with MSZ code 0, half A active with generation 1, every slot FREE and nothing else held. -/
def ready : State :=
  { State.reset with
    opState := .ready
    journal := { Journal.empty with state := .idle, active := some .a, generation := 1 }
    media := { slots := Vector.replicate 8 .free, passedOver := 0 }
    out := Outputs.none }

/-- An entry of the Request Table. -/
def entry (tag : Tag) (line : Nat) (r : Request) (st : EntryState) : Entry :=
  { tag := tag, request := r, hostLine := line, arrival := 0, state := st }

/-- The context of an operation in flight at a host-area line. -/
def context (line : Nat) (phase : Phase) (data : Option LineData) : Context :=
  { mediaLine := 5120 + line, phase := phase, verifyOwed := false, returned := false, lineData := data }

/-- A job of origin PATROL. -/
def job (line : Nat) (source : DataSource) (st : JobState) : Job :=
  { hostLine := line, kind := .retire, origin := .patrol, source := source,
    buffer := match source with | .buffer => some zeroLine | .fetch => none, attempts := 0, reserved := none,
    originator := none, state := st }

/-- A listed line. -/
def suspect (line : Nat) (reason : Reason) (hits : Nat) : Suspect :=
  { hostLine := line, reason := reason, hits := hits, sweep := 0, origin := .hostRead }

/-- A notice of kind QUIET_REACHED. -/
def notice (sequence : BitVec 16) : Notice :=
  { kind := .quietReached, sequence := sequence, partTime := 0, hostLine := none, spare := none, oldSpare := none
    values := [] }

/-- An outcome with these counts, at the default heavy_total. -/
def outcome (a b c d : Count) : DecodeOutcome := outcomeOf 3 #v[a, b, c, d]

/-- A part with this table, its READs in flight in the slot of their tag's number. -/
def withTable (table : List Entry) (s : State) : State := { s with channel := { s.channel with table := table } }

/-- A part with this operation in a slot. -/
def withSlot (id : SlotId) (slot : Slot) (s : State) : State :=
  { s with media := { s.media with slots := s.media.slots.set id.val slot } }

/-- A slot that reads for this owner. -/
def reading (line : Nat) (owner : Owner) : Slot := .issued { op := .read, line := line, owner := owner, timer := 0 }

/-- A slot that writes zeros for this owner, on this try. -/
def writing (line : Nat) (owner : Owner) (tries : Nat) : Slot :=
  .issued { op := .write (Vector.replicate 84 0) tries, line := line, owner := owner, timer := 0 }

/-- The response held, if any. -/
def response (s : State) : Option Response :=
  match s.port.command with
  | .answered r => some r
  | _ => none

/-- The kinds in the Notice Queue. -/
def kinds (s : State) : List NoticeKind := s.notices.queue.map Notice.kind

/-! ### WellFormed: each check refuses an ill-formed term, and exec refuses it by name (R188, R190) -/

/-- The POLL code is no command code (12.6). -/
theorem test_wf_poll_code : (Instr.unknownCommandFrame 0 0 []).wf = false := by decide

/-- Code 1 with length 0 is GET_STATUS's own row (12.4). -/
theorem test_wf_known_frame : (Instr.unknownCommandFrame 1 0 []).wf = false := by decide

/-- A frame is complete with as many operand bytes as its length says (R188). -/
theorem test_wf_operand_count : (Instr.unknownCommandFrame 1 2 [7]).wf = false := by decide

/-- A frame of a length above 16 carries no operand bytes that the part takes (R188). -/
theorem test_wf_long_frame : (Instr.unknownCommandFrame 1 17 [7]).wf = false := by decide

/-- A code above 18 names no command: a frame of the row. -/
theorem test_wf_unknown_code : (Instr.unknownCommandFrame 19 0 []).wf = true := by decide

/-- An ill-formed term is refused by name. -/
theorem test_ill_formed_refused : exec (.unknownCommandFrame 0 0 []) State.reset = .refused .illFormed := rfl

/-! ### Resets -/

/-- R142, R144: power-up reset begins with the read of half A's header in slot 0, ML 0; 12.5: patrol_end is HostLines - 1, which
1.1 gives as 33,549,312 at MSZ code 3. -/
theorem test_power_up_reset :
    (after (.powerUpReset 3) ready).out.mediaOps = [.read 0 0]
      ∧ (after (.powerUpReset 3) ready).settings.patrolEnd = 33549311 := by decide +kernel

/-- The reset state is what power-up reset leaves (assumption 3). -/
theorem test_reset_is_power_up :
    let s := after (.powerUpReset 0) State.reset
    s.media = State.reset.media ∧ s.journal = State.reset.journal ∧ s.settings = State.reset.settings
      ∧ s.out = State.reset.out := by decide +kernel

/-- R142: RESETN low releases ALERT; a request then has no effect. -/
theorem test_resetn_low :
    (after .resetnAsserted { ready with notices := { ready.notices with alert := true } }).notices.alert = false
      ∧ (after .poll (after .resetnAsserted ready)).out.pollResponse = none := by decide +kernel

/-- R143, 8.7: the effect of RESTART keeps the settings, empties the map and quarantines an ISSUED slot. -/
theorem test_restart_effect :
    let s := after .restartEffect
      (after .restart (withSlot 2 (reading 9 .patrol) { ready with settings := { ready.settings with softLimit := 9 } }))
    s.settings.softLimit = 9 ∧ s.opState = .rebuild ∧ s.media.slots[2] = .quarantined 0 ∧ s.out.mediaOps = [.read 0 0] := by
  decide +kernel

/-- R195: a RESTART frame is ACCEPTED while a command is PENDING, and nothing else changes. -/
theorem test_restart_frame :
    let s := after .restart { ready with port := { ready.port with command := .pending 17 } }
    s.out.admission = some .accepted ∧ s.port.command = .pending 17 ∧ s.opState = .ready := by decide +kernel

/-- 8.6.1: PWARN asserted in READY with an empty queue and the journal IDLE: QUIET at the same event, with QUIET_REACHED. -/
theorem test_pwarn_asserted :
    let s := after .pwarnAsserted ready
    s.opState = .quiet ∧ kinds s = [.quietReached] := by decide +kernel

/-- R153: the deassertion of PWARN changes the level alone. -/
theorem test_pwarn_deasserted :
    let s := after .pwarnDeasserted { ready with opState := .quiet, pins := { ready.pins with pwarn := true } }
    s.opState = .quiet ∧ s.pins.pwarn = false := by decide +kernel

/-! ### The host channel -/

/-- 1.4.1: host line 778, unmapped, is served by ML 5898; host line 777 on spare 3 by ML 4099. -/
theorem test_host_read_translation :
    let s := { ready with lineMap := { ready.lineMap with entries := [⟨12, 0, .replay, 1⟩, ⟨777, 3, .replay, 1⟩] } }
    (after (.hostRequest 1 5 778 zeroLine 0) s).out.mediaOps = [.read 0 5898]
      ∧ (after (.hostRequest 1 5 777 zeroLine 0) s).out.mediaOps = [.read 0 4099] := by decide +kernel

/-- 1.4.1: host line 4,189,184 is refused OUT_OF_RANGE at admission. -/
theorem test_host_request_out_of_range :
    let s := after (.hostRequest 1 5 4189184 zeroLine 0) ready
    s.out.completions = [⟨5, .outOfRange, none⟩] ∧ s.channel.table = [] := by decide +kernel

/-- 3.8.1: with tag 4 COMPLETING, the completion of tag 4 makes tag 9, behind it on the locked line 500, HELD. -/
theorem test_completion :
    let s := after (.completion 4)
      { withTable [entry 4 500 .read (.completing .ok (some zeroLine) none), entry 9 500 (.write zeroLine) .waiting] ready with
        queue := [job 500 .buffer .placing] }
    s.out.completions.length = 1 ∧ s.channel.table.map Entry.state = [.held] := by decide +kernel

/-- R49, R51: LINK_RESET turns the read in flight of tag 6 into a residual read of its slot, and the table empties. -/
theorem test_link_reset :
    let s := after .linkReset
      (withSlot 3 (reading 9000 (.host 6)) (withTable [entry 6 3880 .read (.executing (context 3880 .read none))] ready))
    s.channel.table = [] ∧ s.channel.residuals = [⟨3880, 3, .read, false⟩] := by decide +kernel

/-! ### The media channel and the slots -/

/-- R20, R66, R64: a codeword of 84 zero bytes decodes CLEAN to 64 zero bytes, and the READ completes OK with them and keeps its
context. -/
theorem test_read_data :
    let s := after (.readData 3 (Vector.replicate 84 0))
      (withSlot 3 (reading 9000 (.host 6)) (withTable [entry 6 3880 .read (.executing (context 3880 .read none))] ready))
    s.channel.table.map Entry.state = [.completing .ok (some zeroLine) (some (context 3880 .read none))]
      ∧ s.media.slots[3] = .free := by decide +kernel

/-- 4.8.1: a READ_DATA for a QUARANTINED slot is discarded. -/
theorem test_read_data_discarded :
    (after (.readData 3 (Vector.replicate 84 0)) (withSlot 3 (.quarantined 15) ready)).media.slots[3] = .quarantined 15 := by
  decide +kernel

/-- 4.8.2: PROGRAM_FAIL on try 1 issues the write again in the same slot with try 2. -/
theorem test_write_status_reissue :
    let s := after (.writeStatus 3 .programFail) (withSlot 3 (writing 7170 (.host 15) 1) ready)
    s.media.slots[3] = writing 7170 (.host 15) 2 ∧ s.out.mediaOps.length = 1 := by decide +kernel

/-- R57, R70: PROGRAM_FAIL on try 3 of a host write with auto_retire off: DATA_LOST, a LOST listing, MEDIA_FAULT. -/
theorem test_write_status_exhausted :
    let s := after (.writeStatus 3 .programFail)
      (withSlot 3 (writing 7170 (.host 15) 3)
        (withTable [entry 15 2050 (.write zeroLine) (.executing (context 2050 .write (some zeroLine)))]
          { ready with settings := { ready.settings with autoRetire := false } }))
    kinds s = [.dataLost] ∧ s.suspects.map Suspect.reason = [.lost]
      ∧ s.channel.table.map Entry.state = [.completing .mediaFault none (some (context 2050 .write (some zeroLine)))] := by decide +kernel

/-- 4.8.1: at 20 microseconds slot 3 is QUARANTINED, tag 6 COMPLETING with MEDIA_FAULT and media_timeouts 1. -/
theorem test_operation_timeout :
    let s := after (.operationTimeout 3)
      (withSlot 3 (reading 9000 (.host 6)) (withTable [entry 6 3880 .read (.executing (context 3880 .read none))] ready))
    s.media.slots[3] = .quarantined 0
      ∧ s.channel.table.map Entry.state = [.completing .mediaFault none (some (context 3880 .read none))]
      ∧ s.counters.mediaTimeouts = 1 ∧ s.notices.queue.map Notice.values = [[9000, 1]] := by decide +kernel

/-- 4.8.1: at 100 microseconds the quarantine expires and the slot is granted to the patrol claim. -/
theorem test_quarantine_expiry :
    let s := after (.quarantineExpiry 3)
      { ready with
        media := { slots := (Vector.replicate 8 (reading 1 .residual)).set 3 (.quarantined 80), passedOver := 0 }
        patrol := { ready.patrol with step := some ⟨0, 0, .waiting, none, false⟩ } }
    s.media.slots[3] = reading 5120 .patrol := by decide +kernel

/-! ### The patrol and the notice timers -/

/-- R159, row 4: a step begins at the cursor line and its read is granted. -/
theorem test_patrol_expiry :
    let s := after .patrolExpiry ready
    s.out.mediaOps = [.read 0 5120] ∧ s.counters.patrolSteps = 1 := by decide +kernel

/-- R159, row 3: the locked cursor line is skipped with no read, and the cursor advances. -/
theorem test_patrol_expiry_locked :
    let s := after .patrolExpiry { ready with queue := [job 0 .fetch .checking] }
    s.out.mediaOps = [] ∧ s.counters.patrolSkipped = 1 ∧ s.patrol.cursor = 1 := by decide +kernel

/-- R178: a tick raises part time and the pace counter. -/
theorem test_tick :
    let s := after .millisecondTick { ready with notices := { ready.notices with partTime := BitVec.allOnes 32, pace := 62 } }
    s.notices.partTime = 0 ∧ s.notices.pace = 63 := by decide +kernel

/-- R178, R180: at pace_period with a notice in the queue the counter returns to 0 and the line is asserted. -/
theorem test_pace_wrap :
    let s := after .paceWrap { ready with notices := { ready.notices with pace := 63, queue := [notice 0] } }
    s.notices.pace = 0 ∧ s.notices.alert = true := by decide +kernel

/-! ### The service port -/

/-- 12.4: GET_STATUS carries 66 bytes: READY (4), halt cause 0, MSZ code 0, MediaLines 00 40 00 00. -/
theorem test_get_status :
    (response (after .getStatus ready)).map (fun r => (r.results.length, r.results.take 7))
      = some (66, [4, 0, 0, 0, 0x40, 0, 0]) := by decide +kernel

/-- R200: the clear flag returns the values in force and sets every counter to 0. -/
theorem test_get_counters :
    let s := after (.getCounters 1) { ready with counters := { ready.counters with hostReads := 258 } }
    (response s).map (fun r => r.results.take 4) = some [0, 0, 1, 2] ∧ s.counters = Counters.zero := by decide +kernel

/-- 12.5: setting 0, patrol_interval, has the default 100. -/
theorem test_read_setting : (response (after (.readSetting 0) ready)).map Response.results = some [0, 0, 0, 0, 100] := by
  decide +kernel

/-- R25: a WRITE_SETTING of heavy_total outside 2 to 8 is answered BAD_ARGUMENT and leaves the value unchanged. -/
theorem test_write_setting_range :
    let s := after (.writeSetting 5 9) ready
    (response s).map Response.status = some .badArgument ∧ s.settings = ready.settings := by decide +kernel

/-- R179: a pace_period at or below the pace counter sets the counter to 0. -/
theorem test_write_setting_pace :
    let s := after (.writeSetting 10 8) { ready with notices := { ready.notices with pace := 8 } }
    s.settings.pacePeriod = 8 ∧ s.notices.pace = 0 := by decide +kernel

/-- R176, 12.4: TAKE_NOTICE removes the oldest notice; the results begin with the count that remains and its kind code, 13. -/
theorem test_take_notice :
    let s := after .takeNotice { ready with notices := { ready.notices with queue := [notice 0, notice 1] } }
    s.notices.queue = [notice 1] ∧ (response s).map (fun r => (r.results.length, r.results.take 4)) = some (42, [1, 13, 0, 0]) := by
  decide +kernel

/-- R176: PEEK_NOTICE with the queue empty is answered EMPTY. -/
theorem test_peek_notice : (response (after .peekNotice ready)).map Response.status = some .empty := by decide +kernel

/-- 10.5.2, R183: an armed request with a notice waiting asserts the line again and lowers the pace counter by 32. -/
theorem test_ack_alert :
    let s := after .ackAlert
      { ready with notices := { ready.notices with alert := true, armed := true, pace := 40, queue := [notice 0] } }
    s.notices.alert = true ∧ s.notices.armed = false ∧ s.notices.pace = 8 := by decide +kernel

/-- 12.4: LOOKUP_LINE of a mapped line: mapped 1, media line 4099 (00 00 10 03), spare 3, origin REPLAY (6), generation. -/
theorem test_lookup_line :
    let s := { ready with lineMap := { ready.lineMap with entries := [⟨777, 3, .replay, 9⟩] } }
    (response (after (.lookupLine 777) s)).map (fun r => (r.results.length, r.results.take 12))
      = some (33, [1, 0, 0, 0x10, 3, 0, 3, 6, 0, 0, 0, 9]) := by decide +kernel

/-- 12.4: READ_SPARE of FREE spare 5: state 1, media line 4101, no host line. -/
theorem test_read_spare :
    (response (after (.readSpare 5) ready)).map Response.results = some [1, 0x10, 5, 255, 255, 255, 255] := by decide +kernel

/-- R91: READ_SUSPECT at the entry count is EMPTY, at 64 BAD_ARGUMENT. -/
theorem test_read_suspect :
    (response (after (.readSuspect 0) ready)).map Response.status = some .empty
      ∧ (response (after (.readSuspect 64) ready)).map Response.status = some .badArgument := by decide +kernel

/-- R88: CLEAR_SUSPECT removes the entry and returns the was-listed flag. -/
theorem test_clear_suspect :
    let s := after (.clearSuspect 9) { ready with suspects := [suspect 9 .lost 1, suspect 10 .soft 1] }
    s.suspects = [suspect 10 .soft 1] ∧ (response s).map Response.results = some [1] := by decide +kernel

/-- R98, R99, R103: RETIRE_LINE on an empty queue: the job passes to FETCHING and its read is granted. -/
theorem test_retire_line :
    let s := after (.retireLine 9) ready
    s.queue.map Job.state = [.fetching] ∧ s.out.mediaOps = [.read 0 5129] := by decide +kernel

/-- R98, row 2: WRONG_STATE outside READY. -/
theorem test_retire_line_wrong_state :
    (response (after (.retireLine 9) { ready with opState := .quiet })).map Response.status = some .wrongState := by
  decide +kernel

/-- 9.7.1, R168: RESTART_SWEEP in SPLIT toggles the parity and moves the cursor to live start + 1. -/
theorem test_restart_sweep :
    let s := after .restartSweep
      { ready with
        patrol := { ready.patrol with liveMode := .split, cursor := 7 }
        settings := { ready.settings with patrolMode := .split } }
    s.patrol.parity = true ∧ s.patrol.cursor = 1 ∧ s.patrol.sweep = 1 ∧ kinds s = [.sweepDone] := by decide +kernel

/-- R153, R154: QUIESCE with a job in the queue stays QUIESCING. -/
theorem test_quiesce : (after .quiesce { ready with queue := [job 3 .fetch .checking] }).opState = .quiescing := by
  decide +kernel

/-- R155: RESUME takes QUIET to READY. -/
theorem test_resume : (after .resume { ready with opState := .quiet }).opState = .ready := by decide +kernel

/-- R151: INITIALIZE_JOURNAL in UNFORMATTED goes PENDING and writes half B's header first, ML 2048. -/
theorem test_initialize_journal :
    let s := after .initializeJournal { ready with opState := .unformatted, journal := Journal.empty }
    s.port.command = .pending 17 ∧ s.out.mediaOps.length = 1
      ∧ (match s.media.slots[0] with | .issued r => r.line | _ => 0) = 2048 := by decide +kernel

/-- R137, R3: READ_JOURNAL_SLOT of half B, slot 41 reads ML 2092 (7.7.2). -/
theorem test_read_journal_slot :
    let s := after (.readJournalSlot 1 41) ready
    s.port.command = .pending 18 ∧ s.out.mediaOps = [.read 0 2092] := by decide +kernel

/-- R190: a frame whose code names no command is answered BAD_COMMAND. -/
theorem test_unknown_frame :
    (response (after (.unknownCommandFrame 19 0 []) ready)).map Response.status = some .badCommand := by decide +kernel

/-- R190, row 1: a frame while a command is PENDING is refused BUSY. -/
theorem test_unknown_frame_busy :
    let s := after (.unknownCommandFrame 19 0 []) { ready with port := { ready.port with command := .pending 18 } }
    s.out.admission = some .busy ∧ s.port.command = .pending 18 := by decide +kernel

/-- R192: POLL returns NONE before any command, and then the held response. -/
theorem test_poll :
    (after .poll ready).out.pollResponse = some ⟨.none, 0, []⟩
      ∧ (after .poll (after .resume ready)).out.pollResponse = some ⟨.done, 15, []⟩ := by decide +kernel

/-- R192: the end of the POLL releases the held response. -/
theorem test_response_release : (after .responseRelease (after .poll (after .resume ready))).port.command = .none := by
  decide +kernel

/-! ### Shared operations -/

/-- 2.6.1: reads a to f at heavy_total 3, and read d again at 5. -/
theorem test_classes :
    [outcome .zero .zero .zero .zero, outcome .one .zero .zero .zero, outcome .zero .one .one .zero,
        outcome .one .one .zero .one, outcome .two .zero .zero .zero, outcome .zero .over .zero .one].map
        (fun o => (o.depth, o.total, o.cls))
      = [(.zero, 0, .clean), (.one, 1, .soft), (.one, 2, .soft), (.one, 3, .heavy), (.two, 2, .heavy), (.over, 1, .lost)]
      ∧ (outcomeOf 5 #v[.one, .one, .zero, .one]).cls = .soft := by decide

/-- 12.3: the header of generation 1 at MSZ code 0: marker 4B 4A 52 31, generation, size code, and the check value, the sum
75 + 74 + 82 + 49 + 1 = 281 plus 23130 = 23411, hex 5B 73. -/
theorem test_header_line :
    (headerLine 1 0).toList.take 12 = [0x4B, 0x4A, 0x52, 0x31, 0, 0, 0, 1, 0, 0x5B, 0x73, 0] := by decide +kernel

/-- 8.3.1, rows 1 to 4: the half chosen. -/
theorem test_header_selection :
    [chooseHalf (some 5) (some 6), chooseHalf (some 9) none, chooseHalf (some 4) (some 4), chooseHalf none (some 3)]
      = [some (.b, 6), some (.a, 9), some (.a, 4), some (.b, 3)] := by decide

/-- A step takes the command at the front, and idles where none waits (assumption 4). -/
theorem test_step_takes_front :
    step { ready with pending := [.resume, .poll] } = exec .resume { ready with pending := [.poll] } := rfl

/-- R58, assumption 4: with no command waiting an operation timer at 20 microseconds expires. -/
theorem test_idle_expiry :
    step (withSlot 3 (.issued ⟨.read, 9000, .residual, 20⟩) ready)
      = exec (.operationTimeout 3) (withSlot 3 (.issued ⟨.read, 9000, .residual, 20⟩) ready) := rfl

/-! ### Witnesses: states and operands that meet the hypotheses of each statement, clause by clause -/

theorem portFree_ready : PortFree ready := ⟨rfl, rfl, nofun⟩

/-- A part with this line's table entry in service. -/
def serving (e : Entry) : State := withTable [e] ready

theorem witness_StepTakesFrontCommand : ({ ready with pending := [.poll] } : State).pending = .poll :: [] := rfl

/-- Just before every expiry: 19, 79, 999 of 1000 and 999 microseconds. -/
def almostDue : State :=
  withSlot 0 (.issued ⟨.read, 0, .journal, 19⟩)
    (withSlot 1 (.quarantined 79)
      { ready with patrol := { ready.patrol with timer := 999 }, notices := { ready.notices with tick := 999 } })

/-- Whether a slot's timer has not reached its expiry (R58, R59). -/
def beforeExpiry : Slot → Bool
  | .issued r => r.timer < 20
  | .quarantined t => t < 80
  | .free => true

theorem witness_IdleStepRunsTheClock_passes :
    almostDue.pending = [] ∧ almostDue.pins.resetLow = false
      ∧ (∀ (id : SlotId) r, almostDue.media.slots[id.val] = .issued r → r.timer < 20)
      ∧ (∀ (id : SlotId) t, almostDue.media.slots[id.val] = .quarantined t → t < 80)
      ∧ (almostDue.settings.patrolInterval ≠ 0 → almostDue.patrol.timer < almostDue.settings.patrolInterval * 10)
      ∧ almostDue.notices.tick < 1000 := by
  have slots : ∀ id : SlotId, beforeExpiry almostDue.media.slots[id.val] = true := by decide +kernel
  refine ⟨rfl, rfl, fun id r h => ?_, fun id t h => ?_, by decide +kernel, by decide +kernel⟩
  all_goals simpa [h, beforeExpiry] using slots id

theorem witness_IdleStepRunsTheClock_expires :
    (∀ j : SlotId, j < 3 → dueAtSlot (withSlot 3 (.issued ⟨.read, 0, .journal, 20⟩) ready) j = none)
      ∧ (withSlot 3 (.issued ⟨.read, 0, .journal, 20⟩) ready).media.slots[3] = .issued ⟨.read, 0, .journal, 20⟩
      ∧ (∀ j : SlotId, j < 0 → dueAtSlot (withSlot 0 (.quarantined 80) ready) j = none)
      ∧ (withSlot 0 (.quarantined 80) ready).media.slots[0] = .quarantined 80 := by decide +kernel

/-- A part whose patrol timer, tick timer and pace counter stand at these values. -/
def clocked (timer tick pace : Nat) : State :=
  { ready with
    patrol := { ready.patrol with timer := timer }, notices := { ready.notices with tick := tick, pace := pace } }

/-- The patrol interval due; a tick due below the wrap and at it. -/
theorem witness_IdleStepRunsTheClock_due :
    (∀ id : SlotId, (clocked 1000 1000 63).media.slots[id.val] = .free)
      ∧ (clocked 1000 0 0).settings.patrolInterval ≠ 0
      ∧ (clocked 1000 0 0).settings.patrolInterval * 10 ≤ (clocked 1000 0 0).patrol.timer
      ∧ (clocked 999 1000 0).patrol.timer < (clocked 999 1000 0).settings.patrolInterval * 10
      ∧ 1000 ≤ (clocked 0 1000 62).notices.tick
      ∧ (clocked 0 1000 62).notices.pace + 1 < (clocked 0 1000 62).settings.pacePeriod
      ∧ (clocked 0 1000 63).settings.pacePeriod ≤ (clocked 0 1000 63).notices.pace + 1 := by decide +kernel

/-! #### The service port -/

theorem witness_GetStatusReturnsEveryValue :
    PortFree ready ∧ ready.journal.uncertain = none
      ∧ PortFree { ready with journal := { ready.journal with uncertain := some 2044 } } :=
  ⟨portFree_ready, rfl, portFree_ready⟩

theorem witness_GetCountersReturnsAndClears :
    PortFree ready ∧ ready.counters.inOrder[0]? = some 0 ∧ ready.counters.inOrder[16]? = some 0
      ∧ (2 : Byte) ≠ 0 ∧ (2 : Byte) ≠ 1 := ⟨portFree_ready, by decide +kernel⟩

theorem witness_ReadSettingReturnsTheValueInForce :
    PortFree ready ∧ [100, 0][(0 : Byte).toNat]? = some 100 ∧ 11 < (12 : Byte).toNat
      ∧ [0, 0, 0, 0, 0, 0, 0, 0, 0, 0, 0, ready.settings.urgentMask.toNat][(11 : Byte).toNat]? = some 0x8230 :=
  ⟨portFree_ready, by decide +kernel⟩

theorem witness_TakeAndPeekNotice :
    PortFree ready ∧ ready.notices.queue = []
      ∧ PortFree { ready with notices := { ready.notices with queue := [notice 0] } }
      ∧ ({ ready with notices := { ready.notices with queue := [notice 0] } } : State).notices.queue = [notice 0] :=
  ⟨portFree_ready, rfl, portFree_ready, rfl⟩

/-- A part in which line 9 is mapped to spare 3, listed and locked, and spare 7 is reserved for it. -/
def known : State :=
  { ready with
    lineMap :=
      { entries := [⟨9, 3, .replay, 1⟩]
        spares := (((Vector.replicate 1024 .free).set 3 .inUse).set 7 .reserved).set 1023 .discarded }
    suspects := [suspect 9 .lost 2]
    queue := [{ job 9 .buffer .checking with kind := .reretire 3, reserved := some 7 }] }

theorem witness_LookupLineReturnsTheLine :
    PortFree known ∧ (4189183 : BitVec 32).toNat < hostLines known ∧ hostLines known ≤ (4189184 : BitVec 32).toNat
      ∧ mapEntry known 4189183 = none ∧ suspectOf known 4189183 = none ∧ jobOf known 4189183 = none
      ∧ mapEntry known 9 = some ⟨9, 3, .replay, 1⟩ ∧ suspectOf known 9 = some (suspect 9 .lost 2)
      ∧ jobOf known 9 = some { job 9 .buffer .checking with kind := .reretire 3, reserved := some 7 } :=
  ⟨⟨rfl, rfl, nofun⟩, by decide +kernel⟩

theorem witness_SpareAndSuspectCommands :
    PortFree known ∧ 1024 ≤ (1024 : BitVec 16).toNat ∧ (1023 : BitVec 16).toNat = (1023 : Spare).val
      ∧ spareState known 1023 = .discarded ∧ spareState known 0 = .free ∧ spareState known 3 = .inUse
      ∧ (known.lineMap.entries.map MapEntry.spare).Nodup ∧ spareState known 7 = .reserved ∧ known.queue.length = 1
      ∧ 64 ≤ (64 : Byte).toNat ∧ (63 : Byte).toNat < 64 ∧ known.suspects.length ≤ (63 : Byte).toNat
      ∧ known.suspects[(0 : Byte).toNat]? = some (suspect 9 .lost 2)
      ∧ (4189183 : BitVec 32).toNat < hostLines known ∧ hostLines known ≤ (4189184 : BitVec 32).toNat :=
  ⟨⟨rfl, rfl, nofun⟩, by decide +kernel⟩

/-- Each setting's range has its two ends, and a value beside them is out of it. -/
theorem witness_WriteSettingReplacesTheValue :
    PortFree ready
      ∧ (SettingRange ready 0 65535 ∧ ¬ SettingRange ready 0 65536)
      ∧ (SettingRange ready 1 4189183 ∧ ¬ SettingRange ready 1 4189184)
      ∧ (SettingRange ready 2 0 ∧ ¬ SettingRange ready 2 4189184)
      ∧ (SettingRange ready 3 1 ∧ ¬ SettingRange ready 3 2) ∧ (SettingRange ready 4 1 ∧ ¬ SettingRange ready 4 2)
      ∧ (SettingRange ready 5 2 ∧ SettingRange ready 5 8 ∧ ¬ SettingRange ready 5 1)
      ∧ (SettingRange ready 6 1 ∧ SettingRange ready 6 255 ∧ ¬ SettingRange ready 6 256)
      ∧ (SettingRange ready 7 1 ∧ ¬ SettingRange ready 7 2) ∧ (SettingRange ready 8 1 ∧ ¬ SettingRange ready 8 2)
      ∧ (SettingRange ready 9 1023 ∧ ¬ SettingRange ready 9 1024)
      ∧ (SettingRange ready 10 8 ∧ SettingRange ready 10 255 ∧ ¬ SettingRange ready 10 7)
      ∧ (SettingRange ready 11 65534 ∧ ¬ SettingRange ready 11 65535) ∧ ¬ SettingRange ready 12 0 := by
  refine ⟨portFree_ready, ?_⟩
  simp [SettingRange, ready, State.reset, Settings.default, hostLines, hostLinesOf]

theorem witness_AckAlertReleasesAndReasserts :
    PortFree ready ∧ ready.notices.alert = false
      ∧ PortFree { ready with notices := { ready.notices with alert := true, armed := true, queue := [notice 0] } } :=
  ⟨portFree_ready, rfl, portFree_ready⟩

theorem witness_RetireLineRows :
    PortFree ready ∧ hostLines ready ≤ (4189184 : BitVec 32).toNat ∧ (4189183 : BitVec 32).toNat < hostLines ready
      ∧ ready.opState = .ready ∧ ready.journal.state ≠ .failed ∧ ready.queue = []
      ∧ ({ ready with queue := List.replicate 7 (job 1 .fetch .queued) } : State).queue.length < 8
      ∧ 8 ≤ ({ ready with queue := List.replicate 8 (job 1 .fetch .queued) } : State).queue.length
      ∧ ready.channel.table = [] ∧ ready.channel.residuals = [] ∧ ready.patrol.step = none :=
  ⟨portFree_ready, by decide +kernel, by decide +kernel, rfl, by decide, rfl, by decide, by decide, rfl, rfl, rfl⟩

/-- A part whose patrol step on line 0 is in this state, with the cursor one line before live end. -/
def stepping (st : StepState) (mark : Bool) : State :=
  { ready with
    patrol := { ready.patrol with liveEnd := 1, step := some ⟨0, 0, st, some 5120, mark⟩ }
    settings := { ready.settings with trackSoft := false } }

/-- Line 0 waits for the writeback that is issued for it. -/
theorem witness_RetireLineRows_waits :
    PortFree (stepping (.writingBack zeroLine true) false)
      ∧ (stepping (.writingBack zeroLine true) false).patrol.step
          = some ⟨(0 : BitVec 32).toNat, 0, .writingBack zeroLine true, some 5120, false⟩ := ⟨portFree_ready, rfl⟩

theorem witness_RestartSweepEndsTheSweep :
    PortFree ready ∧ ready.opState = .ready ∧ PortFree State.reset ∧ State.reset.opState = .rebuild :=
  ⟨portFree_ready, rfl, ⟨rfl, rfl, nofun⟩, rfl⟩

theorem witness_QuiesceResumeAndPwarnLevel :
    PortFree ready ∧ PortFree { ready with opState := .quiet } ∧ PortFree State.reset ∧ State.reset.opState = .rebuild
      ∧ State.reset.opState ≠ .ready := ⟨portFree_ready, portFree_ready, ⟨rfl, rfl, nofun⟩, rfl, by decide⟩

theorem witness_EntryToQuiescing :
    ready.opState = .ready ∧ ready.pins.resetLow = false ∧ PortFree ready ∧ ready.pins.pwarn = false
      ∧ ready.queue = [] ∧ ready.journal.state = .idle ∧ PortFree { ready with queue := [job 3 .fetch .checking] }
      ∧ (stepping (.writingBack zeroLine false) false).opState = .ready :=
  ⟨rfl, rfl, portFree_ready, rfl, rfl, rfl, portFree_ready, rfl⟩

/-! #### Resets and pending commands -/

theorem witness_PowerUpResetValues : ready.pins.pwarn = false ∧ ready.pending = [] := ⟨rfl, rfl⟩

theorem witness_ResetnLowStopsThePart :
    (after .resetnAsserted ready).pins.resetLow = true ∧ Instr.poll.wf = true := by decide +kernel

theorem witness_RestartFrameAndEffect :
    ready.pins.resetLow = false ∧ restartTaken ready = false ∧ ready.port.command = .none
      ∧ (after .resume ready).port.command = .answered ⟨.done, 15, []⟩ ∧ restartTaken (after .resume ready) = false
      ∧ (after .restart ready).port.selection = .frame ⟨16, 0, []⟩ ∧ (after .restart ready).pins.resetLow = false := by
  decide +kernel

/-- A part in UNFORMATTED, as the rebuild leaves it. -/
def unformatted : State := { ready with opState := .unformatted, journal := Journal.empty }

theorem witness_PendingCommandsBegin :
    PortFree ready ∧ ready.opState ≠ .unformatted ∧ PortFree unformatted ∧ unformatted.opState = .unformatted
      ∧ unformatted.journal.presented = none ∧ unformatted.journal.service = none
      ∧ 1 < (2 : Byte).toNat ∧ 2045 ≤ (2045 : BitVec 16).toNat ∧ (2044 : BitVec 16).toNat < 2045
      ∧ PortFree State.reset ∧ State.reset.journal.presented ≠ none :=
  ⟨portFree_ready, by decide, portFree_ready, rfl, rfl, rfl, by decide, by decide, by decide, ⟨rfl, rfl, nofun⟩, by decide⟩

/-- A part in the midst of INITIALIZE_JOURNAL, with write n presented. -/
def initializing (n : Nat) : State :=
  { unformatted with
    journal := { Journal.empty with work := .formatting n, presented := some .work }
    port := { command := .pending 17, selection := .none } }

theorem witness_InitializeJournalWrites :
    (initializing 4092).journal.work = .formatting 4092 ∧ (initializing 4093).journal.presented = some .work
      ∧ (initializing 4093).journal.service = none ∧ (initializing 4093).port.command = .pending 17
      ∧ (initializing 4093).pins.pwarn = false ∧ 4092 + 1 < 4094
      ∧ ({ initializing 4093 with pins := ⟨true, false⟩ } : State).pins.pwarn = true ∧ (initializing 4093).queue = []
      ∧ ({ initializing 4093 with queue := [job 3 .fetch .checking] } : State).queue ≠ [] :=
  ⟨rfl, rfl, rfl, rfl, rfl, by decide, rfl, rfl, by decide⟩

/-- A part in the midst of READ_JOURNAL_SLOT for half B, slot 2044. -/
def slotReading : State :=
  { ready with
    journal := { ready.journal with service := some (.b, 2044), presented := some .service }
    port := { command := .pending 18, selection := .none } }

theorem witness_ServiceReadAnswers :
    slotReading.journal.service = some (.b, 2044) ∧ slotReading.journal.presented = some .service
      ∧ slotReading.port.command = .pending 18 ∧ workRequest slotReading = none := ⟨rfl, rfl, rfl, rfl⟩

/-- The claim shared: nothing presented, with and without a service read held and with work due; and the rebuild's read presented
while a service read is held, which waits in its turn for the one presented. -/
theorem witness_ServiceReadAnswers_shares :
    let waits (p : Option Presented) : State :=
      { State.reset with journal := { State.reset.journal with service := some (.a, 0), presented := p } }
    ready.journal.presented = none ∧ ready.journal.service = none ∧ workRequest ready = none
      ∧ workRequest { State.reset with journal := { State.reset.journal with presented := none } } = some (.read 0)
      ∧ (waits none).journal.presented = none ∧ (waits none).journal.service ≠ none
      ∧ (waits (some .work)).journal.presented = some .work ∧ (waits (some .work)).journal.service = some (.a, 0)
      ∧ (waits (some .service)).journal.presented = some .service
      ∧ workRequest (waits (some .service)) = some (.read 0) := by decide +kernel

theorem witness_FramesAreJudged :
    PortFree ready ∧ 16 < (17 : Byte).toNat ∧ (16 : Byte).toNat ≤ 16
      ∧ (List.replicate 16 (0 : Byte)).length = (16 : Byte).toNat ∧ 18 < (19 : Byte).toNat
      ∧ commandLength 18 = some 3 ∧ 3 ≠ (16 : Byte).toNat ∧ (Instr.unknownCommandFrame 1 0 []).wf = false
      ∧ commandFrame .getStatus = some ⟨1, 0, []⟩ ∧ Instr.getStatus.wf = true ∧ slotReading.pins.resetLow = false
      ∧ restartTaken slotReading = false ∧ slotReading.port.command = .pending 18 :=
  ⟨portFree_ready, by decide +kernel⟩

theorem witness_PollReturnsAndReleases :
    ready.port.command = .none ∧ slotReading.port.command = .pending 18
      ∧ (after .resume ready).port.command = .answered ⟨.done, 15, []⟩ ∧ restartTaken (after .resume ready) = false
      ∧ (after .poll (after .resume ready)).port.selection = .poll ⟨.done, 15, []⟩ true
      ∧ (after .poll ready).port.selection = .poll ⟨.none, 0, []⟩ false
      ∧ (after .poll ready).pins.resetLow = false := by decide +kernel

/-! #### The host channel -/

theorem witness_HostRequestNotAdmitted :
    ready.pins.resetLow = false ∧ (255 : Byte).toNat % 32 = (31 : Tag).val
      ∧ (∃ e ∈ (serving (entry 31 9 .read .ready)).channel.table, e.tag = 31)
      ∧ (∀ e ∈ ready.channel.table, e.tag ≠ 31) ∧ State.reset.opState = .rebuild
      ∧ hostLines ready ≤ (4189184 : BitVec 32).toNat ∧ (0 : Byte) ≠ 1 ∧ (4 : Byte) ≠ 3 := by decide +kernel

/-- A READ of line 9 behind an entry, behind a residual operation, behind a lock, and free. -/
theorem witness_HostRequestAdmitted :
    ready.pins.resetLow = false ∧ (∀ e ∈ ready.channel.table, e.tag ≠ 31) ∧ ready.opState = .ready
      ∧ (4189183 : BitVec 32).toNat < hostLines ready
      ∧ (∃ e ∈ (serving (entry 0 9 .read .ready)).channel.table, e.hostLine = 9)
      ∧ (∃ j ∈ known.queue, j.hostLine = 9) ∧ known.channel.residuals = [] ∧ (1 : BitVec 64) ≠ 0 := by decide +kernel

/-- Tag 4 COMPLETING ahead of tag 9 on line 500. -/
def completingTable : List Entry :=
  [entry 4 500 .read (.completing .ok none none), entry 9 500 (.maskedWrite zeroLine 0) .waiting]

theorem witness_CompletionTaken :
    ready.pins.resetLow = false ∧ TableLaw (withTable completingTable ready)
      ∧ entry 4 500 .read (.completing .ok none none) ∈ (withTable completingTable ready).channel.table
      ∧ completingTable.filter (fun x => x.tag != 4) = [entry 9 500 (.maskedWrite zeroLine 0) .waiting]
      ∧ TableLaw (serving (entry 4 500 .read (.completing .ok none none)))
      ∧ (∀ j ∈ known.queue, j.hostLine ≠ 500) := by decide +kernel

/-- Tag 6 with its read in flight in slot 3. -/
def linked : State :=
  withSlot 3 (reading 9000 (.host 6)) (serving (entry 6 3880 .read (.executing (context 3880 .read none))))

theorem witness_LinkResetAndResidualOperations :
    linked.pins.resetLow = false
      ∧ (∀ (i j : SlotId) r r' (tag : Tag), linked.media.slots[i.val] = .issued r → linked.media.slots[j.val] = .issued r' →
          r.owner = .host tag → r'.owner = .host tag → i = j)
      ∧ entry 6 3880 .read (.executing (context 3880 .read none)) ∈ linked.channel.table ∧ linked.queue = [] := by
  refine ⟨rfl, fun i j r r' tag hi hj _ _ => ?_, by decide, rfl⟩
  have only : ∀ k : SlotId, k ≠ 3 → linked.media.slots[k.val] = .free := by decide +kernel
  have at3 : ∀ (k : SlotId) (x : SlotRecord), linked.media.slots[k.val] = .issued x → k = 3 := fun k x hx =>
    Classical.byContradiction fun hk => by rw [only k hk] at hx; cases hx
  rw [at3 i r hi, at3 j r' hj]

/-- A residual operation of line 500 in slot 3. -/
def residual (op : ResidualOp) (returned : Bool) : Residual := { hostLine := 500, slot := 3, op := op, returned := returned }

/-- A WAITING request of this kind for line 500, with these residual operations. -/
def held (r : Request) (residuals : List Residual) : State :=
  { ready with channel := { table := [entry 9 500 r .waiting], arrival := 0, residuals := residuals } }

theorem witness_LinkResetAndResidualOperations_ends :
    (∀ op ∈ [ResidualOp.read, .mergeRead, .write, .verify], ∀ returned,
      residual op returned ∈ (held .read [residual op returned]).channel.residuals
        ∧ ((held .read [residual op returned]).channel.residuals.map Residual.slot).Nodup)
      ∧ (held .read []).channel.table = [] ++ entry 9 500 .read .waiting :: []
      ∧ ((held .read []).channel.table.map Entry.tag).Nodup ∧ (held .read []).channel.residuals = []
      ∧ (∀ j ∈ (held .read []).queue, j.hostLine ≠ 500)
      ∧ (∃ j ∈ ({ held .read [] with queue := [job 500 .fetch .checking] } : State).queue, j.hostLine = 500)
      ∧ (entry 9 500 (.maskedWrite zeroLine 0) .waiting).request = .maskedWrite zeroLine 0
      ∧ (∀ e ∈ ready.channel.table, e.hostLine ≠ 500) := by decide +kernel

/-! #### The media channel, the patrol and the ticks -/

theorem witness_ReadDataArrives :
    linked.pins.resetLow = false ∧ linked.media.slots[3] = .issued ⟨.read, 9000, .host 6, 0⟩
      ∧ (∀ r, ready.media.slots[3] = .issued r → ∃ codeword tries, r.op = .write codeword tries) :=
  ⟨rfl, by decide +kernel, fun r h => by
    have : ready.media.slots[3] = Slot.free := by decide +kernel
    rw [this] at h; cases h⟩

theorem witness_WriteStatusDecides :
    (∀ tries ∈ [1, 2, 3],
      (withSlot 7 (writing 5120 .patrol tries) ready).media.slots[7]
        = .issued ⟨.write (Vector.replicate 84 0) tries, 5120, .patrol, 0⟩)
      ∧ (∀ r, linked.media.slots[3] = .issued r → r.op = .read) :=
  ⟨by decide +kernel, fun r h => by
    have : linked.media.slots[3] = reading 9000 (.host 6) := by decide +kernel
    rw [this] at h; cases h; rfl⟩

theorem witness_SlotTimersExpire :
    linked.media.slots[3] = .issued ⟨.read, 9000, .host 6, 0⟩ ∧ linked.pins.resetLow = false
      ∧ (withSlot 7 (.quarantined 80) ready).media.slots[7] = .quarantined 80 := by decide +kernel

/-- The rows of the expiry: a step in flight; the cursor past the end; locked, with the advance within the region and past its
end; free. -/
theorem witness_PatrolExpiryRows :
    ready.pins.resetLow = false ∧ ready.settings.patrolInterval ≠ 0 ∧ State.reset.opState ≠ .ready
      ∧ ready.opState = .ready ∧ ready.patrol.step = none ∧ ready.patrol.cursor ≤ ready.patrol.liveEnd
      ∧ ready.patrol.cursor + 1 ≤ ready.patrol.liveEnd ∧ ready.queue = []
      ∧ ({ ready with patrol := { ready.patrol with liveEnd := 0, cursor := 1 } } : State).patrol.liveEnd < 1
      ∧ ({ ready with patrol := { ready.patrol with liveEnd := 0 } } : State).patrol.liveEnd < ready.patrol.cursor + 1
      ∧ (∃ j ∈ ({ ready with queue := [job 0 .fetch .checking] } : State).queue, j.hostLine = ready.patrol.cursor) := by
  decide +kernel

theorem witness_TicksAndPaceWrap :
    ({ ready with notices := { ready.notices with pace := 62 } } : State).notices.pace + 1 < ready.settings.pacePeriod
      ∧ ready.settings.pacePeriod ≤ ({ ready with notices := { ready.notices with pace := 63 } } : State).notices.pace + 1
      ∧ ready.pins.resetLow = false ∧ ready.notices.queue = [] ∧ ready.notices.alert = false := by decide +kernel

/-! #### Host execution and grants -/

/-- The part `linked` with a job for line 5 at the head. -/
def linkedQueued : State := { linked with queue := [job 5 .fetch .checking] }

theorem outcome_classes :
    (outcome .zero .zero .zero .zero).cls = .clean ∧ (outcome .one .zero .zero .zero).cls = .soft
      ∧ (outcome .two .zero .zero .zero).cls = .heavy ∧ (outcome .over .zero .zero .zero).cls = .lost := by decide

theorem witness_HostReadEnds :
    TableLaw linkedQueued
      ∧ entry 6 3880 .read (.executing (context 3880 .read none)) ∈ linkedQueued.channel.table
      ∧ (context 3880 .read none).phase = .read
      ∧ (∀ x ∈ linkedQueued.suspects, x.hostLine ≠ 3880)
      ∧ ({ linkedQueued with settings := { ready.settings with trackSoft := false } } : State).settings.trackSoft = false
      ∧ linkedQueued.settings.trackSoft = true
      ∧ (∀ x ∈ (listSuspect 3880 .soft .hostRead linkedQueued).suspects, x.hostLine = 3880 → x.hits < 8)
      ∧ linkedQueued.settings.softLimit = 8 ∧ linkedQueued.settings.autoRetire = true
      ∧ ¬ (linkedQueued.opState ≠ .ready ∨ linkedQueued.journal.state = .failed)
      ∧ linkedQueued.queue ≠ [] ∧ linkedQueued.queue.length < 8 ∧ (∀ j ∈ linkedQueued.queue, j.hostLine ≠ 3880)
      ∧ ({ linkedQueued with opState := .quiescing } : State).opState ≠ .ready
      ∧ ({ linkedQueued with settings := { ready.settings with autoRetire := false } } : State).settings.autoRetire
          = false :=
  ⟨by decide +kernel, by decide +kernel, rfl, nofun, rfl, rfl, by decide +kernel, rfl, rfl,
    by decide, by decide, by decide, by decide, by decide, rfl⟩

/-- The context of a host write of zeros to line 2050. -/
def writeContext (phase : Phase) (owed returned : Bool) : Context :=
  { context 2050 phase (some zeroLine) with verifyOwed := owed, returned := returned }

/-- A part with tag 15 writing line 2050, and a job for line 5 at the head. -/
def writes (phase : Phase) (owed returned : Bool) : State :=
  { serving (entry 15 2050 (.write zeroLine) (.executing (writeContext phase owed returned))) with
    queue := [job 5 .fetch .checking] }

theorem witness_HostWriteEnds :
    (∀ phase ∈ [Phase.write, Phase.verify], ∀ owed returned,
      TableLaw (writes phase owed returned)
        ∧ entry 15 2050 (.write zeroLine) (.executing (writeContext phase owed returned))
            ∈ (writes phase owed returned).channel.table
        ∧ (writeContext phase owed returned).lineData = some zeroLine
        ∧ (writes phase owed returned).queue.map Job.hostLine = [5]
        ∧ (writes phase owed returned).opState = .ready ∧ (writes phase owed returned).journal.state ≠ .failed
        ∧ (writes phase owed returned).settings.autoRetire = true) := by decide +kernel

/-- The answers to a write's request for a job: none taken in QUIESCING, a new job, and an adoption. -/
theorem witness_HostWriteEnds_answers :
    let asked (s : State) : Answer := (bufferRequest 2050 .hostWrite zeroLine (some 15) s).1
    let s := writes .verify true false
    asked { s with opState := .quiescing } = .refused ∧ asked s = .enqueued
      ∧ asked { s with queue := [job 5 .fetch .checking, job 2050 .fetch .queued] } = .adopted
      ∧ (heavyWithData 2050 .hostWrite zeroLine (some 15) s).1 = true
      ∧ (heavyWithData 2050 .hostWrite zeroLine (some 15) { s with opState := .quiescing }).1 = false
      ∧ (∀ x ∈ s.suspects, x.hostLine ≠ 2050) ∧ (writeContext .verify true true).returned = true := by decide +kernel

/-- A masked write that awaits its merge read. -/
theorem witness_HostWriteEnds_merge :
    let e := entry 15 2050 (.maskedWrite zeroLine 1) (.executing (writeContext .mergeRead false false))
    TableLaw (serving e) ∧ e ∈ (serving e).channel.table ∧ (writeContext .mergeRead false false).lineData = some zeroLine
      ∧ (writeContext .mergeRead false false).phase = .mergeRead := by decide +kernel

theorem witness_HostGrantsIssue :
    (entry 6 9 .read .ready).request = .read ∧ (entry 6 9 (.write zeroLine) .ready).request = .write zeroLine
      ∧ (entry 6 9 (.maskedWrite zeroLine 1) .ready).request = .maskedWrite zeroLine 1 ∧ (1 : BitVec 64) ≠ BitVec.allOnes 64
      ∧ (suspectOf ready 9).map Suspect.reason ≠ some .lost
      ∧ (suspectOf { linkedQueued with suspects := [suspect 9 .lost 1] } 9).map Suspect.reason = some .lost
      ∧ linkedQueued.settings.autoRetire = true ∧ linkedQueued.opState = .ready ∧ linkedQueued.journal.state ≠ .failed
      ∧ linkedQueued.queue ≠ [] ∧ linkedQueued.queue.length < 8 ∧ (∀ j ∈ linkedQueued.queue, j.hostLine ≠ 9)
      ∧ (writeContext .verify true false).phase = .verify ∧ (writeContext .mergeRead false false).phase ≠ .verify
      ∧ (writeContext .write false true).returned = true ∧ (writeContext .write false true).lineData = some zeroLine := by
  decide +kernel

/-- A part whose patrol step on line 0 waits, with this passed-over count. -/
def patrolling (passedOver : Nat) : State :=
  { ready with
    patrol := { ready.patrol with step := some ⟨0, 0, .waiting, none, false⟩ }
    media := { ready.media with passedOver := passedOver } }

/-- A host grant with no patrol claim and with each kind of it, a masked write that is executed as WRITE, and the three answers to
the request of a write to a line listed LOST. -/
theorem witness_HostGrantsIssue_patrol :
    ready.patrol.step = none ∧ (patrolling 15).patrol.step = some ⟨0, 0, .waiting, none, false⟩
      ∧ (stepping (.writingBack zeroLine false) false).patrol.step
          = some ⟨0, 0, .writingBack zeroLine false, some 5120, false⟩
      ∧ (entry 6 9 (.maskedWrite zeroLine (BitVec.allOnes 64)) .ready).request = .maskedWrite zeroLine (BitVec.allOnes 64)
      ∧ (bufferRequest 9 .hostWrite zeroLine (some 6) { ready with opState := .quiescing }).1 = .refused
      ∧ (bufferRequest 9 .hostWrite zeroLine (some 6) ready).1 = .enqueued
      ∧ (bufferRequest 9 .hostWrite zeroLine (some 6) { ready with queue := [job 9 .fetch .queued] }).1 = .adopted := by
  decide +kernel

theorem witness_GrantsFollowTheOrder :
    (journalClaim (initializing 1)).isSome = true ∧ journalClaim ready = none
      ∧ (retirementClaim { ready with queue := [job 9 .fetch .fetching] }).isSome = true ∧ retirementClaim ready = none
      ∧ patrolClaims (patrolling 16) = true ∧ 16 ≤ (patrolling 16).media.passedOver
      ∧ (patrolling 15).media.passedOver < 16 ∧ patrolClaims ready = false
      ∧ entryClaims (serving (entry 6 9 .read .ready)) (entry 6 9 .read .ready) = true
      ∧ lowestFreeSlot linked = some 0 ∧ winner ready = none
      ∧ lowestFreeSlot (serving (entry 6 9 .read .ready)) = some 0
      ∧ winner (serving (entry 6 9 .read .ready)) = some (.host (entry 6 9 .read .ready)) := by decide +kernel

theorem witness_GrantsFollowTheOrder_noFreeSlot :
    ∀ id : SlotId, ({ ready with media := ⟨Vector.replicate 8 (reading 1 .residual), 0⟩ } : State).media.slots[id.val] ≠ .free := by
  decide +kernel

theorem witness_GrantsRunOut :
    (withTable (List.replicate 32 (entry 6 9 .read .ready)) ready).channel.table.length ≤ 32 := by decide

/-! #### The patrol, the pool and the Retirement Engine -/

/-- What a lock taken, a host write and QUIESCING find of a step on line 0: none, a waiting read, a read issued, a writeback that
waits and one that is issued; and a line that is another. -/
theorem witness_PatrolStepRuns_sees :
    ready.patrol.step = none ∧ (patrolling 16).patrol.step = some ⟨0, 0, .waiting, none, false⟩
      ∧ (∀ st ∈ [StepState.reading, .writingBack zeroLine false, .writingBack zeroLine true],
          (stepping st false).patrol.step = some ⟨0, 0, st, some 5120, false⟩)
      ∧ (∀ d, StepState.reading ≠ .writingBack d false) ∧ (0 : Nat) ≠ 1 :=
  ⟨rfl, rfl, fun _ _ => rfl, nofun, by decide⟩

theorem witness_PatrolStepRuns :
    (patrolling 16).patrol.step = some ⟨0, 0, .waiting, none, false⟩
      ∧ (stepping .reading false).patrol.step = some ⟨0, 0, .reading, some 5120, false⟩
      ∧ (stepping .reading true).patrol.step = some ⟨0, 0, .reading, some 5120, true⟩
      ∧ (stepping .reading false).patrol.cursor + 1 ≤ (stepping .reading false).patrol.liveEnd
      ∧ (∀ x ∈ (stepping .reading false).suspects, x.hostLine ≠ 0)
      ∧ (stepping .reading false).settings.trackSoft = false
      ∧ (∀ e ∈ (stepping .reading false).channel.table, e.hostLine ≠ 0)
      ∧ (stepping .reading false).channel.residuals = [] ∧ (stepping .reading false).queue = []
      ∧ (stepping .reading false).opState = .ready := by decide +kernel

/-- A SOFT outcome that is suppressed by a host write or by the operating state, a cursor that leaves the region, a step of an
earlier sweep, and a writeback before and after its grant. -/
theorem witness_PatrolStepRuns_ends :
    let s := stepping .reading false
    (softAction 0 .patrol s).patrol.step = some ⟨0, 0, .reading, some 5120, false⟩
      ∧ (∃ e ∈ (withTable [entry 6 0 (.write zeroLine) (.executing (writeContext .write false false))] s).channel.table,
          e.hostLine = 0 ∧ e.request ≠ .read)
      ∧ ({ s with opState := .quiescing } : State).opState ≠ .ready
      ∧ ({ s with patrol := { s.patrol with cursor := 1 } } : State).patrol.liveEnd < 1 + 1
      ∧ ({ s with patrol := { s.patrol with sweep := 1 } } : State).patrol.sweep ≠ 0
      ∧ (stepping (.writingBack zeroLine false) false).patrol.step
          = some ⟨0, 0, .writingBack zeroLine false, some 5120, false⟩
      ∧ (stepping (.writingBack zeroLine true) false).patrol.step
          = some ⟨0, 0, .writingBack zeroLine true, some 5120, false⟩ := by
  refine ⟨by decide +kernel, ⟨_, List.mem_singleton.mpr rfl, rfl, nofun⟩, by decide, by decide, by decide, rfl, rfl⟩

theorem witness_TranslationOfAHostLine :
    mapEntry known 9 = some ⟨9, 3, .replay, 1⟩ ∧ (∀ m ∈ known.lineMap.entries, m.hostLine ≠ 4189183)
      ∧ 4189183 < hostLines known := by decide +kernel

/-- A part with a job at the head and every spare in this state. -/
def pooled (st : SpareState) : State :=
  { ready with
    lineMap := { entries := [], spares := Vector.replicate 1024 st }, queue := [job 9 .buffer .placing] }

theorem witness_ReservationTakesTheLowestSpare :
    (pooled .free).queue = [job 9 .buffer .placing] ∧ spareState (pooled .free) 0 = .free
      ∧ (∀ k : Spare, k < 0 → spareState (pooled .free) k ≠ .free)
      ∧ ∀ i : Spare, spareState (pooled .discarded) i ≠ .free := by
  refine ⟨rfl, by simp [spareState, pooled], by simp, fun i => ?_⟩
  simp [spareState, pooled]

theorem witness_JobRequestsAreAnswered :
    (ready.opState = .ready ∧ ready.journal.state ≠ .failed) ∧ State.reset.opState ≠ .ready
      ∧ jobOf { ready with queue := [job 9 .fetch .queued] } 9 = some (job 9 .fetch .queued)
      ∧ ¬ ((job 9 .buffer .queued).source = .fetch ∧ (job 9 .buffer .queued).state = .queued)
      ∧ (List.replicate 7 (job 1 .fetch .queued)).length < 8 ∧ 8 ≤ (List.replicate 8 (job 1 .fetch .queued)).length
      ∧ (∀ j ∈ List.replicate 7 (job 1 .fetch .queued), j.hostLine ≠ 9) := by decide +kernel

/-- A part with this job at the head, on spare 7. -/
def placing (kind : JobKind) (st : JobState) : State :=
  { known with queue := [{ job 9 .buffer st with kind := kind, reserved := some 7 }] }

theorem witness_HeadJobRuns :
    (placing .retire .placing).queue = [{ job 9 .buffer .placing with kind := .retire, reserved := some 7 }]
      ∧ (placing (.reretire 3) .checking).queue
          = [{ job 9 .buffer .checking with kind := .reretire 3, reserved := some 7 }]
      ∧ known.journal.state = .idle ∧ known.journal.presented = none ∧ known.journal.service = none
      ∧ known.journal.active ≠ none ∧ slotReading.journal.state = .idle
      ∧ slotReading.journal.presented = some .service := ⟨rfl, rfl, rfl, rfl, rfl, by decide, rfl, rfl⟩

/-- The head job QUEUED with nothing to wait for and with each thing that it waits for; FETCHING; with an operation in flight; and
the states of the journal in which it asks for an append. -/
theorem witness_HeadJobRuns_examined :
    let s : State := { ready with queue := [job 9 .fetch .queued] }
    s.journal.state ≠ .failed ∧ s.channel.table = [] ∧ s.channel.residuals = [] ∧ s.patrol.step = none
      ∧ (∃ e ∈ (withTable [entry 6 9 .read (.executing (context 9 .read none))] s).channel.table, e.hostLine = 9
          ∧ (job 9 .fetch .queued).originator ≠ some e.tag)
      ∧ (∃ x ∈ (held .read [residual .read false]).channel.residuals, x.hostLine = 500)
      ∧ (job 9 .fetch .queued).source = .fetch ∧ (job 9 .buffer .queued).source = .buffer
      ∧ (job 9 .fetch .fetching).state = .fetching ∧ (job 9 .buffer .placing).buffer = some zeroLine
      ∧ (withSlot 7 (writing 4103 .retirement 1) s).media.slots[7]
          = .issued ⟨.write (Vector.replicate 84 0) 1, 4103, .retirement, 0⟩
      ∧ (∀ st ∈ [JournalState.compacting, .failed],
          ({ known with journal := { known.journal with state := st } } : State).journal.state = st) := by decide +kernel

/-- A list of n lines with this reason. -/
def listing (n : Nat) (reason : Reason) : State :=
  { ready with suspects := (List.range n).map fun i => suspect i reason 1 }

/-- A READY part with auto_retire off and this queue. -/
def settled (queue : List Job) (entries : List MapEntry) : State :=
  { ready with
    queue := queue
    lineMap := { ready.lineMap with entries := entries }
    settings := { ready.settings with autoRetire := false } }

theorem witness_CommitOfTheHeadJob :
    (settled [{ job 9 .buffer .recording with reserved := some 7 }] []).opState = .ready
      ∧ (settled [] []).settings.autoRetire = false ∧ (∀ x ∈ (settled [] []).lineMap.entries, x.hostLine ≠ 9)
      ∧ ({ job 9 .buffer .recording with reserved := some 7 } : Job).kind = .retire
      ∧ ({ job 9 .buffer .recording with reserved := some 7, kind := .reretire 3 } : Job).kind = .reretire 3
      ∧ (∃ x ∈ (settled [] [⟨9, 3, .replay, 1⟩]).lineMap.entries, x.hostLine = 9) := by decide +kernel

theorem witness_EndingsWithoutCommit :
    (settled [job 9 .buffer .recording] []).queue = [job 9 .buffer .recording]
      ∧ (settled [] []).opState = .ready ∧ (settled [] []).settings.autoRetire = false
      ∧ (job 9 .buffer .recording).reserved = none
      ∧ ({ job 9 .buffer .recording with reserved := some 7 } : Job).reserved = some 7 :=
  ⟨rfl, rfl, rfl, rfl, rfl⟩

/-- A list whose oldest DEFERRED line is locked and whose next is not; one with none; and a part whose drain check passes. -/
theorem witness_EndingsWithoutCommit_after :
    let s : State := { ready with suspects := [suspect 5 .deferred 1, suspect 9 .deferred 1], queue := [job 5 .fetch .checking] }
    s.opState = .ready ∧ s.journal.state ≠ .failed ∧ s.settings.autoRetire = true
      ∧ s.suspects = [suspect 5 .deferred 1] ++ suspect 9 .deferred 1 :: [] ∧ (∀ j ∈ s.queue, j.hostLine ≠ 9)
      ∧ (∀ y ∈ [suspect 5 .deferred 1], y.reason = .deferred → ∃ j ∈ s.queue, j.hostLine = y.hostLine)
      ∧ (∀ x ∈ (listing 2 .soft).suspects, x.reason ≠ .deferred)
      ∧ ({ ready with opState := .quiescing } : State).queue = []
      ∧ ({ ready with opState := .quiescing } : State).journal.state = .idle := by decide +kernel

theorem mapLaw_known : MapLaw known := by
  refine ⟨by decide, by decide, fun i => ?_⟩
  simp only [spareState, known, Vector.getElem_set, List.map_cons, List.map_nil, List.mem_singleton, Fin.ext_iff]
  have : (Vector.replicate 1024 SpareState.free)[i.val] = .free := by simp
  rw [this]
  show _ ↔ i.val = 3
  split
  · simp; omega
  · split
    · simp; omega
    · split
      · simp; omega
      · simp; omega

theorem witness_CommitAndReplayKeepTheMapLaw :
    MapLaw known ∧ spareState known 7 = .reserved ∧ mapEntry known 10 = none
      ∧ (mapEntry known 9).map MapEntry.spare = some 3 ∧ recordFits known (.retire 10 0) = true
      ∧ recordFits known (.reretire 9 0 3) = true ∧ recordFits known (.discard 0) = true :=
  ⟨mapLaw_known, by decide +kernel⟩

/-! #### Listings, notices and the Integrity Unit -/

theorem witness_ListingsAndTrackerActions :
    (∃ x ∈ (listing 1 .soft).suspects, x.hostLine = 0) ∧ (∀ x ∈ (listing 63 .soft).suspects, x.hostLine ≠ 64)
      ∧ (listing 63 .soft).suspects.length < 64 ∧ 64 ≤ (listing 64 .soft).suspects.length
      ∧ (∀ x ∈ (listing 64 .soft).suspects, x.hostLine ≠ 64)
      ∧ (listing 64 .soft).suspects = [] ++ suspect 0 .soft 1 :: (listing 64 .soft).suspects.drop 1
      ∧ ((listing 64 .soft).suspects.map Suspect.hostLine).Nodup
      ∧ (∀ x ∈ (listing 64 .lost).suspects, x.reason ≠ .soft) := by decide +kernel

/-- The actions of the Health Tracker: a listed line at soft_limit, and the three answers to its request. -/
theorem witness_ListingsAndTrackerActions_asks :
    let s : State := { ready with suspects := [suspect 9 .soft 7] }
    (suspectOf (listSuspect 9 .soft .patrol s) 9).map Suspect.hits = some 8 ∧ s.settings.softLimit = 8
      ∧ s.settings.autoRetire = true ∧ (fetchRequest 9 .patrol s).1 = .enqueued
      ∧ (fetchRequest 9 .patrol { s with queue := [job 9 .fetch .queued] }).1 = .alreadyQueued
      ∧ (fetchRequest 9 .patrol { s with opState := .quiescing }).1 = .refused
      ∧ (bufferRequest 9 .patrol zeroLine none s).1 = .enqueued
      ∧ (bufferRequest 9 .patrol zeroLine none { s with queue := [job 9 .fetch .queued] }).1 = .adopted
      ∧ (bufferRequest 9 .patrol zeroLine none { s with queue := [job 9 .buffer .queued] }).1 = .refused
      ∧ ({ ready with settings := { ready.settings with trackSoft := false } } : State).settings.trackSoft = false := by
  decide +kernel

theorem witness_RaisingOfANotice :
    (List.replicate 31 (notice 0)).length < 32 ∧ 32 ≤ (List.replicate 32 (notice 0)).length
      ∧ ready.settings.urgentMask.getLsbD (noticeCode .dataLost) = true
      ∧ ready.settings.urgentMask.getLsbD (noticeCode .retired) = false ∧ ready.notices.alert = false := by decide +kernel

theorem witness_CodeClassification :
    Count.over ∈ #v[Count.zero, .over, .zero, .one].toList ∧ Count.over ∉ #v[Count.two, .zero, .zero, .zero].toList
      ∧ Count.two ∈ #v[Count.two, .zero, .zero, .zero].toList ∧ Count.two ∉ #v[Count.one, .one, .one, .one].toList
      ∧ linked.media.slots[3] = .issued ⟨.read, 9000, .host 6, 0⟩ := by decide +kernel

/-- The interleave of zeros is valid, and these words differ from it in 0, 1, 2 and 3 symbols (R20, R22). -/
theorem witness_DecodingWithinTwoSymbols :
    let zeros : Interleave := Vector.replicate 21 0
    let differences (v : Interleave) : Nat := ((List.finRange 21).filter fun p => zeros[p.val] != v[p.val]).length
    isValid 0 zeros = true ∧ differences zeros = 0 ∧ differences (zeros.set 0 1) = 1
      ∧ differences ((zeros.set 0 1).set 20 255) = 2 ∧ differences (((zeros.set 0 1).set 7 2).set 20 255) = 3 := by
  decide +kernel

/-- The codeword of a line of zeros with no symbol changed, with two in interleave 0, and with three in interleave 3: its first and
last data bytes and its last check byte. -/
theorem witness_EncodeThenDecode :
    let zeros := encode zeroLine
    let changed (w : Codeword) (i : Nat) : Nat :=
      ((List.finRange 21).filter fun p => (interleaveOf w i)[p.val] != (interleaveOf zeros i)[p.val]).length
    (∀ i : Fin 4, changed zeros i.val = 0)
      ∧ (changed ((zeros.set 0 1).set 68 255) 0 = 2 ∧ ∀ i : Fin 4, changed ((zeros.set 0 1).set 68 255) i.val ≤ 2)
      ∧ changed (((zeros.set 3 1).set 63 2).set 83 255) 3 = 3 := by decide +kernel

/-! #### The journal -/

theorem witness_JournalLinesRoundTrip :
    (1 : BitVec 32) ≠ 0 ∧ 33549312 ≤ 33549312 ∧ 33549311 < 33549312 ∧ (1023 : Spare) ≠ 0 := by decide

/-- A part in REBUILD that reads for this step, with half A active, generation 1 and this tail slot. -/
def rebuilding (step : RebuildStep) (tail : Nat) : State :=
  { State.reset with
    journal :=
      { Journal.empty with
        active := some .a, generation := 1, tail := tail, work := .rebuild step, presented := some .work } }

/-- The same with a service read of half A's slot 0 held. -/
def sharing (s : State) : State := { s with journal := { s.journal with service := some (.a, 0) } }

theorem witness_HeaderSelection :
    (rebuilding .headerA 0).journal.work = .rebuild .headerA
      ∧ (sharing (rebuilding .headerA 0)).journal.presented = some .work
      ∧ (sharing (rebuilding .headerA 0)).journal.service ≠ none
      ∧ (rebuilding (.headerB (some 9)) 0).journal.work = .rebuild (.headerB (some 9))
      ∧ (rebuilding (.headerB none) 0).journal.presented = some .work
      ∧ (rebuilding (.headerB none) 0).journal.service = none
      ∧ headerOf 0 (outcome .zero .zero .zero .zero) zeroLine = none
      ∧ headerOf 0 (outcome .zero .zero .zero .zero) (headerLine 9 0) = some 9
      ∧ (9 : BitVec 32).toNat ≤ (9 : BitVec 32).toNat ∧ (9 : BitVec 32).toNat < (10 : BitVec 32).toNat := by
  decide +kernel

/-- A record line with these fields and a check value that matches. -/
def rawRecord (kind : Nat) (generation line : BitVec 32) (new old : BitVec 16) : LineData :=
  let covered := n8 kind ++ be32 generation ++ be32 line ++ be16 new ++ be16 old
  lineOf (covered ++ be16 (checkValue covered))

theorem witness_RecordJudgement_state :
    (rebuilding .record 2044).journal.work = .rebuild .record ∧ (rebuilding .record 2043).journal.tail < 2044
      ∧ 2044 ≤ (rebuilding .record 2044).journal.tail ∧ (rebuilding .record 0).journal.active = some .a
      ∧ (rebuilding .record 0).journal.service = none ∧ (sharing (rebuilding .record 0)).journal.service ≠ none
      ∧ spareState (rebuilding .record 0) 1023 = .free
      ∧ (∀ x ∈ (rebuilding .record 0).lineMap.entries, x.hostLine ≠ 4189183)
      ∧ (mapEntry known 9).map MapEntry.spare = some 3 ∧ spareState known 3 ≠ .free ∧ spareState known 0 = .free := by
  decide +kernel

/-- Lines of the first rows: BLANK, a kind outside the four, a failed check. -/
theorem witness_RecordJudgement_lines :
    (outcome .zero .zero .zero .zero).cls ≠ .lost ∧ byteAt zeroLine 0 = 0 ∧ 3 < (byteAt (lineOf [4]) 0).toNat
      ∧ byteAt (lineOf [1]) 0 ≠ 0 ∧ read16 (lineOf [1]) 13 ≠ checkValue ((lineOf [1]).toList.take 13) := by decide +kernel

/-- Records with a check value that matches: another generation, and a host line and an old spare beyond their ranges. -/
theorem witness_RecordJudgement_beyond :
    read32 (rawRecord 1 2 9 0 0) 1 ≠ 1 ∧ hostLines ready ≤ (read32 (rawRecord 1 1 4189184 0 0) 5).toNat
      ∧ 1024 ≤ (read16 (rawRecord 2 1 9 0 1024) 11).toNat := by decide +kernel

/-- A record of generation 1 for the last host line, with the last spare as its new and old one. -/
theorem witness_RecordJudgement_last :
    let d := rawRecord 2 1 4189183 1023 1023
    read16 d 13 = checkValue (d.toList.take 13) ∧ byteAt d 0 = 2 ∧ read32 d 1 = 1 ∧ (read32 d 5).toNat < hostLines ready
      ∧ (read16 d 9).toNat = (1023 : Spare).val ∧ (read16 d 11).toNat = (1023 : Spare).val := by decide +kernel

/-- The same of a RETIRE and a DISCARD record, and a new spare beyond its range. -/
theorem witness_RecordJudgement_kinds :
    (byteAt (rawRecord 1 1 9 1024 0) 0 = 1 ∧ 1024 ≤ (read16 (rawRecord 1 1 9 1024 0) 9).toNat)
      ∧ byteAt (rawRecord 3 1 0 1023 0) 0 = 3 ∧ (read16 (rawRecord 3 1 0 1023 0) 9).toNat = (1023 : Spare).val := by
  decide +kernel

theorem witness_RebuildEnds :
    (rebuilding .bitmapLow 0).journal.work = .rebuild .bitmapLow
      ∧ (rebuilding (.bitmapHigh 1) 0).journal.work = .rebuild (.bitmapHigh 1)
      ∧ (rebuilding .bitmapLow 0).journal.presented = some .work ∧ (rebuilding .bitmapLow 0).journal.service = none
      ∧ (sharing (rebuilding .bitmapLow 0)).journal.service ≠ none
      ∧ (rebuilding .bitmapLow 0).journal.active = some .a ∧ 64 ≤ 2045 - (rebuilding .record 1981).journal.tail
      ∧ 2045 - (rebuilding .record 1982).journal.tail < 64 ∧ (rebuilding .record 0).queue = []
      ∧ (rebuilding .record 0).pins.pwarn = false
      ∧ ({ rebuilding .record 0 with pins := ⟨true, false⟩ } : State).pins.pwarn = true
      ∧ ({ rebuilding .record 0 with queue := [job 3 .fetch .checking] } : State).queue ≠ []
      ∧ (rebuilding .record 0).journal.generation ≠ BitVec.allOnes 32 := by decide +kernel

/-- A part that appends this record at this tail slot. -/
def appending (r : AppendRecord) (tail : Nat) : State :=
  { known with
    journal :=
      { known.journal with
        state := .appending, pending := some r, tail := tail, work := .append, presented := some .work } }

theorem witness_AppendEnds :
    (appending (.retire 9 7) 1980).journal.work = .append ∧ (appending (.reretire 9 7 3) 0).journal.presented = some .work
      ∧ (appending (.discard 7) 0).journal.service = none ∧ (sharing (appending (.discard 7) 0)).journal.service ≠ none
      ∧ (appending (.discard 7) 0).journal.active = some .a
      ∧ (appending (.discard 7) 0).journal.pending = some (.discard 7)
      ∧ 64 ≤ 2045 - ((appending (.retire 9 7) 1980).journal.tail + 1)
      ∧ 2045 - ((appending (.retire 9 7) 1981).journal.tail + 1) < 64
      ∧ (appending (.retire 9 7) 0).journal.generation ≠ BitVec.allOnes 32 := by decide +kernel

/-- A part that compacts, with these writes to do, for this pending append, carried or held. -/
def compacting (carries : Bool) (pending : Option AppendRecord) (todo : List CompactionWrite) : State :=
  { known with
    journal :=
      { known.journal with
        state := .compacting, pending := pending, work := .compact ⟨2, 0, 1, carries, todo⟩, presented := some .work } }

theorem witness_CompactionRuns :
    MapLaw known
      ∧ (compacting false none [.bitmapHigh, .header]).journal.work = .compact ⟨2, 0, 1, false, [.bitmapHigh, .header]⟩
      ∧ (compacting false none [.header]).journal.presented = some .work
      ∧ (compacting false none [.header]).journal.service = none
      ∧ (sharing (compacting false none [.header])).journal.service ≠ none
      ∧ (compacting false none [.header]).journal.active = some .a ∧ (compacting false none [.header]).opState ≠ .rebuild
      ∧ (compacting false none [.header]).journal.state = .compacting
      ∧ (compacting true (some (.retire 9 7)) [.header]).journal.pending = some (.retire 9 7) :=
  ⟨mapLaw_known, rfl, rfl, rfl, by decide, rfl, by decide, rfl, rfl⟩

/-- A compaction from the last generation and from another; in REBUILD, with PWARN deasserted and asserted. -/
theorem witness_CompactionRuns_starts :
    ({ known with journal := { known.journal with generation := BitVec.allOnes 32 } } : State).journal.generation
        = BitVec.allOnes 32
      ∧ known.journal.generation ≠ BitVec.allOnes 32 ∧ (rebuilding .record 2000).opState = .rebuild
      ∧ (rebuilding .record 2000).journal.pending = none ∧ (rebuilding .record 2000).pins.pwarn = false
      ∧ ({ rebuilding .record 2000 with pins := ⟨true, false⟩ } : State).pins.pwarn = true
      ∧ (rebuilding .record 2000).queue = []
      ∧ ({ rebuilding .record 2000 with queue := [job 3 .fetch .checking] } : State).queue ≠ []
      ∧ ({ rebuilding .record 2000 with journal := { ready.journal with state := .failed } } : State).journal.state
          = .failed := by decide +kernel

/-! #### The laws of the part -/

theorem witness_CapacityAndTableLawsAreKept :
    NoticeLaw ready ∧ SuspectLaw ready ∧ QueueLaw ready ∧ TableLaw (withTable completingTable ready)
      ∧ PassedOverLaw (patrolling 16) ∧ SettingsLaw ready
      ∧ step { withTable completingTable ready with pending := [.completion 4] }
          = .next (after (.completion 4) (withTable completingTable ready)) := by
  refine ⟨by decide +kernel, by decide +kernel, by decide +kernel, by decide +kernel, by decide +kernel, by decide +kernel, rfl⟩

/-- The part `known`, whose head job holds spare 7 RESERVED for line 9, keeps the laws of the pool and of the generation. -/
theorem witness_MapPoolAndGenerationLawsAreKept :
    PoolLaw known ∧ GenerationLaw known ∧ step { known with pending := [.resume] } = .next (after .resume known)
      ∧ Instr.resume ≠ .restartEffect ∧ (∀ straps, Instr.resume ≠ .powerUpReset straps) := by
  have idle : ∀ w, w ≠ .none → known.journal.work ≠ w := fun _ h e => h e.symm
  have replay : ReplayLaw known := fun _ e => absurd e (idle _ (by simp))
  refine ⟨⟨mapLaw_known, ⟨fun i => ?_, fun j h _ => ?_, nofun⟩, by decide +kernel, nofun, replay⟩,
    ⟨replay, fun _ e => absurd e (idle _ (by simp)), fun _ e => absurd e (idle _ (by simp)),
      fun _ e => absurd e (idle _ (by simp)), fun e => absurd e (by decide)⟩, rfl, by decide, nofun⟩
  · simp only [spareState, known, Vector.getElem_set]
    have : (Vector.replicate 1024 SpareState.free)[i.val] = .free := by simp
    rw [this]
    show _ ↔ some (7 : Spare) = some i
    simp only [Option.some.injEq, Fin.ext_iff]
    show _ ↔ 7 = i.val
    split
    · simp; omega
    · split
      · simp; omega
      · split
        · simp; omega
        · simp; omega
  · cases h
    exact .inr (.inl rfl)

theorem witness_CountersOnlyRise :
    step { ready with pending := [.resume] } = .next (after .resume ready) ∧ Instr.resume ≠ .getCounters 1
      ∧ Instr.resume ≠ .restartEffect ∧ (∀ straps, Instr.resume ≠ .powerUpReset straps)
      ∧ ready.counters.inOrder[16]? = some 0 := ⟨rfl, by decide, by decide, nofun, by decide +kernel⟩

end Sys2Proof.Tests
end

/-! ### The translation of a host line (R5) -/

namespace Sys2Proof.Machine

variable {s : State} {h : Nat} {m : MapEntry}

/-- The lookup answers only what the map holds for the line. -/
theorem mem_and_hostLine_of_mapEntry_eq_some (hm : mapEntry s h = some m) :
    m ∈ s.lineMap.entries ∧ m.hostLine = h :=
  ⟨List.mem_of_find?_eq_some hm, by simpa using List.find?_some hm⟩

/-- The lookup misses no entry: it answers `none` exactly for a line that no entry names. -/
theorem mapEntry_eq_none_iff : mapEntry s h = none ↔ ∀ m ∈ s.lineMap.entries, m.hostLine ≠ h := by
  simp [mapEntry]

theorem translate_of_mapped (hm : mapEntry s h = some m) : translate s h = 4096 + m.spare.val := by
  simp [translate, hm, spareAddress]

theorem translate_of_unmapped (hm : mapEntry s h = none) : translate s h = 5120 + h := by
  simp [translate, hm]

theorem newJob_kind_of_mapped (o : Origin) (data : Option LineData) (tag : Option Tag) (hm : mapEntry s h = some m) :
    (newJob s h o data tag).kind = .reretire m.spare := by
  simp [newJob, hm]

theorem newJob_kind_of_unmapped (o : Origin) (data : Option LineData) (tag : Option Tag) (hm : mapEntry s h = none) :
    (newJob s h o data tag).kind = .retire := by
  simp [newJob, hm]

/-- The host area ends where the media lines end (R1). -/
theorem hostLine_add_lt_mediaLinesOf (hh : h < hostLines s) : 5120 + h < mediaLinesOf s.straps := by
  have hhost : hostLines s = mediaLinesOf s.straps - 5120 := hostLinesOf_eq s.straps
  omega

/-- A mapped line is served in the spare pool, below ML 5120, and an unmapped line in the host area from there on. -/
theorem translate_mem_pool_or_hostArea (hh : h < hostLines s) :
    4096 ≤ translate s h ∧ translate s h < mediaLinesOf s.straps := by
  have harea := hostLine_add_lt_mediaLinesOf hh
  cases hm : mapEntry s h with
  | none =>
    rw [translate_of_unmapped hm]
    omega
  | some m =>
    have hspare : m.spare.val < 1024 := m.spare.isLt
    rw [translate_of_mapped hm]
    omega

/-- Settles O40, from the two answers of the map's lookup. -/
theorem translationOfAHostLine : Obligations.TranslationOfAHostLine := by
  intro s h o data tag
  refine ⟨fun m hm => ?mapped, fun hno => ?unmapped, translate_mem_pool_or_hostArea⟩
  case mapped =>
    obtain ⟨hmem, hline⟩ := mem_and_hostLine_of_mapEntry_eq_some hm
    exact ⟨hmem, hline, translate_of_mapped hm, newJob_kind_of_mapped o data tag hm⟩
  case unmapped =>
    have hm : mapEntry s h = none := mapEntry_eq_none_iff.mpr hno
    exact ⟨hm, translate_of_unmapped hm, newJob_kind_of_unmapped o data tag hm⟩

end Sys2Proof.Machine

/-! ### The class of a decode (R22 to R25) -/

namespace Sys2Proof.Machine

/-- The depth is the largest count, OVER being the largest (R23): each count in turn is compared with the largest before it. -/
theorem foldl_countMax_eq (l : List Count) :
    l.foldl countMax .zero =
      if .over ∈ l then .over else if .two ∈ l then .two else if .one ∈ l then .one else .zero := by
  induction l using List.reverseRecOn with
  | nil => rfl
  | append_singleton xs c ih =>
    rw [List.foldl_concat, ih]
    cases c <;> simp <;> split_ifs <;> rfl

/-- The total is the sum of the counts that are not OVER (R23). -/
theorem sum_map_countCorrections (l : List Count) :
    (l.map countCorrections).sum = l.count .one + 2 * l.count .two := by
  induction l with
  | nil => rfl
  | cons c xs ih => cases c <;> simp [countCorrections, ih] <;> omega

theorem count_eq_zero_or_one {c : Count} (hover : c ≠ .over) (htwo : c ≠ .two) : c = .zero ∨ c = .one :=
  match c with
  | .zero => .inl rfl
  | .one => .inr rfl
  | .two => (htwo rfl).elim
  | .over => (hover rfl).elim

section Classify

variable {heavyTotal total : Nat} {depth : Count}

theorem classify_over : classify heavyTotal .over total = .lost := rfl

theorem classify_of_total_zero (hd : depth ≠ .over) : classify heavyTotal depth 0 = .clean := by
  simp [classify, hd]

theorem classify_of_heavy (hd : depth ≠ .over) (ht : total ≠ 0) (hh : depth = .two ∨ heavyTotal ≤ total) :
    classify heavyTotal depth total = .heavy := by
  simp [classify, hd, ht, hh]

theorem classify_eq_soft_iff :
    classify heavyTotal depth total = .soft ↔
      depth ≠ .over ∧ total ≠ 0 ∧ depth ≠ .two ∧ total < heavyTotal := by
  unfold classify
  split_ifs with hover hzero hheavy
  · simp [hover]
  · simp [hzero]
  · exact ⟨nofun, fun ⟨_, _, htwo, hlt⟩ => (hheavy.elim htwo (Nat.not_le.mpr hlt)).elim⟩
  · obtain ⟨htwo, hlt⟩ := not_or.mp hheavy
    exact ⟨fun _ => ⟨hover, hzero, htwo, Nat.not_le.mp hlt⟩, fun _ => rfl⟩

/-- Above a total of 4, which a depth of 0 or 1 cannot pass, the setting decides nothing (R24). -/
theorem classify_eq_of_lt {a b : Nat} (h : depth ≠ .over → depth ≠ .two → total < a ∧ total < b) :
    classify a depth total = classify b depth total := by
  by_cases hover : depth = .over
  · simp only [hover, classify_over]
  by_cases htwo : depth = .two
  · simp only [classify, htwo, true_or]
  · obtain ⟨ha, hb⟩ := h hover htwo
    simp only [classify, Nat.not_le.mpr ha, Nat.not_le.mpr hb]

end Classify

section Outcome

variable (heavyTotal : Nat) {counts : Vector Count 4}

theorem outcomeOf_counts : (outcomeOf heavyTotal counts).counts = counts := rfl

theorem outcomeOf_cls :
    (outcomeOf heavyTotal counts).cls =
      classify heavyTotal (outcomeOf heavyTotal counts).depth (outcomeOf heavyTotal counts).total := rfl

theorem outcomeOf_depth :
    (outcomeOf heavyTotal counts).depth =
      if .over ∈ counts.toList then .over
      else if .two ∈ counts.toList then .two else if .one ∈ counts.toList then .one else .zero :=
  foldl_countMax_eq counts.toList

theorem outcomeOf_total :
    (outcomeOf heavyTotal counts).total = counts.toList.count .one + 2 * counts.toList.count .two :=
  sum_map_countCorrections counts.toList

theorem outcomeOf_depth_eq_over_iff : (outcomeOf heavyTotal counts).depth = .over ↔ .over ∈ counts.toList := by
  rw [outcomeOf_depth]
  split_ifs <;> simp_all

theorem outcomeOf_depth_eq_two_iff :
    (outcomeOf heavyTotal counts).depth = .two ↔ .over ∉ counts.toList ∧ .two ∈ counts.toList := by
  rw [outcomeOf_depth]
  split_ifs <;> simp_all

/-- With no interleave at 2, each of the four contributes at most 1. -/
theorem outcomeOf_total_le_four (htwo : .two ∉ counts.toList) : (outcomeOf heavyTotal counts).total ≤ 4 := by
  have hones : counts.toList.count .one ≤ counts.toList.length := List.count_le_length
  rw [Vector.length_toList] at hones
  rw [outcomeOf_total, List.count_eq_zero.mpr htwo]
  exact hones

theorem outcomeOf_cls_of_over (hover : .over ∈ counts.toList) : (outcomeOf heavyTotal counts).cls = .lost := by
  rw [outcomeOf_cls, (outcomeOf_depth_eq_over_iff heavyTotal).mpr hover, classify_over]

theorem outcomeOf_cls_of_total_zero (hover : .over ∉ counts.toList) (ht : (outcomeOf heavyTotal counts).total = 0) :
    (outcomeOf heavyTotal counts).cls = .clean := by
  rw [outcomeOf_cls, ht]
  exact classify_of_total_zero (mt (outcomeOf_depth_eq_over_iff heavyTotal).mp hover)

theorem outcomeOf_cls_of_heavy (hover : .over ∉ counts.toList) (ht : (outcomeOf heavyTotal counts).total ≠ 0)
    (hh : .two ∈ counts.toList ∨ heavyTotal ≤ (outcomeOf heavyTotal counts).total) :
    (outcomeOf heavyTotal counts).cls = .heavy :=
  classify_of_heavy (mt (outcomeOf_depth_eq_over_iff heavyTotal).mp hover) ht
    (hh.imp_left fun htwo => (outcomeOf_depth_eq_two_iff heavyTotal).mpr ⟨hover, htwo⟩)

theorem outcomeOf_cls_eq_soft_iff :
    (outcomeOf heavyTotal counts).cls = .soft ↔
      .over ∉ counts.toList ∧ .two ∉ counts.toList ∧ (outcomeOf heavyTotal counts).total ≠ 0 ∧
        (outcomeOf heavyTotal counts).total < heavyTotal := by
  rw [outcomeOf_cls, classify_eq_soft_iff, Ne, outcomeOf_depth_eq_over_iff, Ne, Ne, outcomeOf_depth_eq_two_iff]
  tauto

/-- Every setting of heavy_total above 4 gives one class (R24). -/
theorem outcomeOf_cls_eq_of_five_le {a b : Nat} (ha : 5 ≤ a) (hb : 5 ≤ b) :
    (outcomeOf a counts).cls = (outcomeOf b counts).cls := by
  have hsame : (outcomeOf b counts).cls = classify b (outcomeOf a counts).depth (outcomeOf a counts).total := rfl
  rw [outcomeOf_cls, hsame]
  refine classify_eq_of_lt fun hover htwo => ?_
  have hno : .two ∉ counts.toList := fun h =>
    htwo ((outcomeOf_depth_eq_two_iff a).mpr ⟨mt (outcomeOf_depth_eq_over_iff a).mpr hover, h⟩)
  have hle : (outcomeOf a counts).total ≤ 4 := outcomeOf_total_le_four a hno
  exact ⟨Nat.lt_of_le_of_lt hle ha, Nat.lt_of_le_of_lt hle hb⟩

end Outcome

theorem readDataArrives_of_issued_read {s : State} {id : SlotId} {line : Nat} {owner : Owner} {timer : Nat}
    (w : Codeword)
    (hslot : s.media.slots[id.val] = .issued { op := .read, line := line, owner := owner, timer := timer }) :
    readDataArrives id w s = acceptRead id owner (decodeOutcome s.settings.heavyTotal w) (decodeData w) s := by
  simp only [readDataArrives, hslot]

/-- Settles O49, from the depth and the total of a record and the cases of its class. -/
theorem codeClassification : Obligations.CodeClassification := by
  refine ⟨fun heavyTotal counts => ?record, fun id w s line owner timer hslot => ?arrival⟩
  case record =>
    simp only [← outcomeOf_total heavyTotal]
    refine ⟨outcomeOf_counts heavyTotal, trivial, fun hover => ?lost, fun hover => ?kept, fun hsoft => ?soft,
      fun a b ha _ hb _ => outcomeOf_cls_eq_of_five_le ha hb⟩
    case lost =>
      exact ⟨(outcomeOf_depth_eq_over_iff heavyTotal).mpr hover, outcomeOf_cls_of_over heavyTotal hover⟩
    case kept =>
      exact ⟨by rw [outcomeOf_depth, if_neg hover], outcomeOf_cls_of_total_zero heavyTotal hover,
        outcomeOf_cls_of_heavy heavyTotal hover,
        fun ht htwo hlt => (outcomeOf_cls_eq_soft_iff heavyTotal).mpr ⟨hover, htwo, ht, hlt⟩⟩
    case soft =>
      obtain ⟨hover, htwo, ht, hlt⟩ := (outcomeOf_cls_eq_soft_iff heavyTotal).mp hsoft
      exact ⟨fun c hc => count_eq_zero_or_one (ne_of_mem_of_not_mem hc hover) (ne_of_mem_of_not_mem hc htwo),
        Nat.one_le_iff_ne_zero.mpr ht, outcomeOf_total_le_four heavyTotal htwo, hlt⟩
  case arrival => exact ⟨readDataArrives_of_issued_read w hslot, _, fun _ => rfl⟩

end Sys2Proof.Machine

/-! ### The answer of the media bank to a write (R57) -/

namespace Sys2Proof.Machine

/-- While RESETN is high an event has its effect on the state whose outputs are cleared. -/
theorem whenUp_of_resetHigh {s : State} (f : State → State) (hup : s.pins.resetLow = false) :
    whenUp f s = f (clearOut s) := by
  simp [whenUp, hup]

theorem exec_writeStatus_of_resetHigh {s : State} (id : SlotId) (status : WriteStatus)
    (hup : s.pins.resetLow = false) :
    exec (.writeStatus id status) s = .next (writeStatusArrives id status (clearOut s)) :=
  congrArg Host.Outcome.next (whenUp_of_resetHigh (writeStatusArrives id status) hup)

section Arrival

variable {s : State} {id : SlotId} {line : Nat} {owner : Owner} {timer : Nat} {codeword : Codeword} {tries : Nat}

theorem writeStatusArrives_done_of_issued_write
    (hslot : s.media.slots[id.val] =
      .issued { op := .write codeword tries, line := line, owner := owner, timer := timer }) :
    writeStatusArrives id .done s = endWrite id owner .done s := by
  simp only [writeStatusArrives, hslot]

theorem writeStatusArrives_programFail_of_tries_lt
    (hslot : s.media.slots[id.val] =
      .issued { op := .write codeword tries, line := line, owner := owner, timer := timer })
    (ht : tries < 3) :
    writeStatusArrives id .programFail s =
      reissue id { op := .write codeword tries, line := line, owner := owner, timer := timer } codeword tries s := by
  simp only [writeStatusArrives, hslot, if_pos ht]

theorem writeStatusArrives_programFail_of_three_le
    (hslot : s.media.slots[id.val] =
      .issued { op := .write codeword tries, line := line, owner := owner, timer := timer })
    (ht : 3 ≤ tries) :
    writeStatusArrives id .programFail s = endWrite id owner .exhausted s := by
  simp only [writeStatusArrives, hslot, if_neg (Nat.not_lt.mpr ht)]

/-- A slot that is FREE or QUARANTINED, or whose operation is a MEDIA_READ, discards the status. -/
theorem writeStatusArrives_of_no_write (status : WriteStatus)
    (hread : ∀ r, s.media.slots[id.val] = .issued r → r.op = .read) :
    writeStatusArrives id status s = s := by
  cases hslot : s.media.slots[id.val] with
  | free => simp only [writeStatusArrives, hslot]
  | quarantined timer => simp only [writeStatusArrives, hslot]
  | issued r => simp only [writeStatusArrives, hslot, hread r hslot]

end Arrival

/-- Settles O30, from the cases of the slot that the status names: a write answered DONE, one that fails with a try left, one
that fails on its last try, and a slot with no write. -/
theorem writeStatusDecides : Obligations.WriteStatusDecides := by
  intro id s hup freed
  simp only [exec_writeStatus_of_resetHigh id _ hup]
  refine ⟨fun line owner timer codeword tries hslot => ⟨?done, fun ht => ?retry, fun ht => ?exhausted⟩,
    fun hread status => ?discarded⟩
  case done => exact congrArg _ (writeStatusArrives_done_of_issued_write (s := clearOut s) hslot)
  case retry =>
    have hlt : tries < 3 := by omega
    exact congrArg _ (writeStatusArrives_programFail_of_tries_lt (s := clearOut s) hslot hlt)
  case exhausted => exact congrArg _ (writeStatusArrives_programFail_of_three_le (s := clearOut s) hslot ht.ge)
  case discarded => exact congrArg _ (writeStatusArrives_of_no_write (s := clearOut s) status hread)

end Sys2Proof.Machine

/-! ### A command frame at a free service port (R187 to R191) -/

namespace Sys2Proof.Machine

section Port

open Sys2Proof.Safety

variable {s : State} {code : Byte} {operands : List Byte} {answer : State → Reply × State}

@[simp] theorem received_notices : (received code operands s).notices = s.notices := rfl
@[simp] theorem received_settings : (received code operands s).settings = s.settings := rfl

/-- With no RESTART taken and no command PENDING, a completed frame is judged by its command alone. -/
theorem takeFrame_of_free (f : Frame) (hrestart : restartTaken s = false)
    (hidle : ∀ c, s.port.command ≠ .pending c) :
    takeFrame f answer s = holdReply f.code (answer (receive f s)).1 (answer (receive f s)).2 := by
  cases hcmd : s.port.command with
  | pending c => exact (hidle c hcmd).elim
  | none => simp [takeFrame, hrestart, hcmd]
  | answered r => simp [takeFrame, hrestart, hcmd]

/-- At a free port a command that answers at its frame leaves what its answer leaves, with the response held. -/
theorem serve_of_portFree {status : ServiceStatus} {results : List Byte} {t : State} (hfree : PortFree s)
    (hanswer : answer (received code operands s) = (.answer status results, t)) :
    serve code operands answer s = .next (answered code status results t) := by
  obtain ⟨hup, hrestart, hidle⟩ := hfree
  have htaken := takeFrame_of_free (s := clearOut s) (answer := answer) (frameOf code operands) hrestart hidle
  have hreceived : receive (frameOf code operands) (clearOut s) = received code operands s := rfl
  rw [serve, whenUp_of_resetHigh _ hup, htaken, hreceived, hanswer]
  rfl

end Port

end Sys2Proof.Machine

/-! ### TAKE_NOTICE and PEEK_NOTICE (R176) -/

namespace Sys2Proof.Machine

variable {s : State} {n : Notice} {rest : List Notice}

theorem answerTakeNotice_of_empty (hq : s.notices.queue = []) : answerTakeNotice s = (.answer .empty [], s) := by
  simp only [answerTakeNotice, hq, refuse]

theorem answerTakeNotice_of_cons (hq : s.notices.queue = n :: rest) :
    answerTakeNotice s =
      (.answer .done (n8 rest.length ++ noticeBytes n), { s with notices := { s.notices with queue := rest } }) := by
  simp only [answerTakeNotice, hq]

theorem answerPeekNotice_of_empty (hq : s.notices.queue = []) : answerPeekNotice s = (.answer .empty [], s) := by
  simp only [answerPeekNotice, hq, refuse]

theorem answerPeekNotice_of_cons (hq : s.notices.queue = n :: rest) :
    answerPeekNotice s = (.answer .done (n8 (rest.length + 1) ++ noticeBytes n), s) := by
  simp only [answerPeekNotice, hq]

/-- Settles O6, from the two commands' answers on an empty queue and on a queue with an oldest notice. -/
theorem takeAndPeekNotice : Obligations.TakeAndPeekNotice := by
  intro s hfree
  refine ⟨fun hq => ⟨?takeEmpty, ?peekEmpty⟩, fun n rest hq => ⟨?take, ?peek⟩⟩
  case takeEmpty => exact serve_of_portFree hfree (answerTakeNotice_of_empty hq)
  case peekEmpty => exact serve_of_portFree hfree (answerPeekNotice_of_empty hq)
  case take => exact serve_of_portFree hfree (answerTakeNotice_of_cons hq)
  case peek => exact serve_of_portFree hfree (answerPeekNotice_of_cons hq)

end Sys2Proof.Machine

/-! ### ACK_ALERT (R183) -/

namespace Sys2Proof.Machine

section Acknowledge

variable {s : State}

theorem ackAlert_of_released (halert : s.notices.alert = false) : ackAlert s = s := by
  simp [ackAlert, halert]

theorem ackAlert_of_not_armed (halert : s.notices.alert = true) (harmed : s.notices.armed = false) :
    ackAlert s = { s with notices := { s.notices with alert := false } } := by
  simp [ackAlert, halert, harmed]

theorem ackAlert_of_armed_of_empty (halert : s.notices.alert = true) (harmed : s.notices.armed = true)
    (hq : s.notices.queue = []) :
    ackAlert s = { s with notices := { s.notices with alert := false, armed := false } } := by
  simp [ackAlert, halert, harmed, hq]

/-- Where a notice waits for an armed request, the line ends ASSERTED as it was. -/
theorem ackAlert_of_armed_of_waiting (halert : s.notices.alert = true) (harmed : s.notices.armed = true)
    (hq : s.notices.queue ≠ []) :
    ackAlert s =
      { s with
        notices :=
          { s.notices with
            armed := false
            pace := if halfPeriod s ≤ s.notices.pace then s.notices.pace - halfPeriod s else s.notices.pace } } := by
  simp [ackAlert, halert, harmed, hq]

end Acknowledge

section Served

open Sys2Proof.Safety

/-- ACK_ALERT at a free port is answered from the state that it leaves. -/
theorem exec_ackAlert_of_portFree {s t : State} (hfree : PortFree s) (hack : ackAlert (received 7 [] s) = t) :
    exec .ackAlert s =
      .next (answered 7 .done (n8 (flagCode t.notices.alert) ++ n8 (flagCode t.notices.armed)) t) :=
  serve_of_portFree hfree (by rw [answerAckAlert, hack])

end Served

/-- Settles O11, from the four cases of ACK_ALERT: the line RELEASED, no request armed, a request armed with no notice, and
one with a notice that waits. -/
theorem ackAlertReleasesAndReasserts : Obligations.AckAlertReleasesAndReasserts := by
  intro s hfree r half
  refine ⟨fun halert => ?released, fun halert =>
    ⟨fun harmed => ?notArmed, fun harmed hq => ?armedEmpty, fun harmed hq => ?armedWaiting⟩⟩
  case released =>
    have hflag : r.notices.alert = false := halert
    rw [Safety.AnswersOnly, exec_ackAlert_of_portFree hfree (ackAlert_of_released hflag), hflag]
    rfl
  case notArmed =>
    rw [exec_ackAlert_of_portFree hfree (ackAlert_of_not_armed halert harmed), received_notices, harmed]
    rfl
  case armedEmpty => exact exec_ackAlert_of_portFree hfree (ackAlert_of_armed_of_empty halert harmed hq)
  case armedWaiting =>
    rw [exec_ackAlert_of_portFree hfree (ackAlert_of_armed_of_waiting halert harmed hq), received_notices, halert]
    rfl

end Sys2Proof.Machine

/-! ### A step by the command it takes -/

namespace Sys2Proof.Machine

namespace Kept

variable {P : State → Prop} {Ev : List (Tag × Nat) → Tag → Prop} {s t : State}

/-- A step keeps the property where its command does: the part's own clock takes no reset and no clear. -/
theorem step_of_exec (k : Kept P Ev)
    (hfront : ∀ c rest, s.pending = c :: rest → Machine.exec c { s with pending := rest } = .next t → P t) (h : P s)
    (ht : Machine.step s = .next t) : P t := by
  unfold Machine.step at ht
  split at ht
  · next c rest hp => exact hfront c rest hp ht
  · unfold idle at ht
    split at ht
    · next c hc =>
      refine k.exec (fun straps e => ?_) (fun e => ?_) (fun p o e => ?_) h ht
      all_goals
        subst e
        simpa using nextDue_timer hc
    · injection ht with ht
      subst ht
      exact k.passMicrosecond (k.clearOut h)

end Kept

section

variable (s : State)

/-- A change of the head job changes the queue alone. -/
theorem updateHead_eq (f : Job → Job) : ∃ q, updateHead f s = { s with queue := q } := by
  unfold updateHead
  split
  · exact ⟨s.queue, rfl⟩
  · exact ⟨_, rfl⟩

/-- An alert request changes the Notice Unit alone. -/
theorem alertRequest_eq : ∃ n, alertRequest s = { s with notices := n } := by
  unfold alertRequest
  split <;> exact ⟨_, rfl⟩

/-- ACK_ALERT changes the Notice Unit alone. -/
theorem ackAlert_eq : ∃ n, ackAlert s = { s with notices := n } := by
  unfold ackAlert
  split_ifs
  · exact ⟨s.notices, rfl⟩
  all_goals exact ⟨_, rfl⟩

/-- The presenting of the next claim changes what is presented alone. -/
theorem presentNext_eq : ∃ p, presentNext s = { s with journal := { s.journal with presented := p } } := by
  unfold presentNext
  split
  · exact ⟨s.journal.presented, rfl⟩
  · split_ifs
    · exact ⟨_, rfl⟩
    · exact ⟨_, rfl⟩
    · exact ⟨s.journal.presented, rfl⟩

/-- The rebuild's begin changes the journal alone. -/
theorem beginRebuild_eq : ∃ j, beginRebuild s = { s with journal := j } := by
  obtain ⟨p, hp⟩ := presentNext_eq { s with journal := { s.journal with work := .rebuild .headerA } }
  exact ⟨_, hp⟩

end

theorem nodup_append_singleton {α : Type} {l : List α} {a : α} (hl : l.Nodup) (ha : a ∉ l) : (l ++ [a]).Nodup :=
  List.concat_eq_append ▸ hl.concat ha

/-! ### The laws of capacities and tables (O58) -/

section Laws

open Sys2Proof.Safety

theorem closed_noticeLaw : Closed NoticeLaw fun _ _ => True := by
  repeat' constructor
  case alert =>
    intro s ⟨hlen, harm⟩
    cases ha : s.notices.alert
    · rw [alertRequest_released ha]
      exact ⟨hlen, fun _ => rfl⟩
    · rw [alertRequest_asserted ha]
      exact ⟨hlen, fun _ => ha⟩
  case noticeEnters => exact fun _ hlt ⟨_, harm⟩ => ⟨by simpa using hlt, harm⟩
  case headChanges =>
    intro s f _ h
    obtain ⟨q, hq⟩ := updateHead_eq s f
    rw [hq]
    exact h
  -- The other changes leave the Notice Queue, ALERT and the armed flag as they are.
  all_goals
    intros
    trivial

theorem arrivals_noticeLaw : Arrivals NoticeLaw where
  pins _ h := h
  pendingTo _ h := h
  lineReleased h := ⟨h.1, nofun⟩
  admitted _ _ _ _ _ h := h
  entryLeaves _ h := h
  linkReset h := h
  settings _ _ _ _ h := h
  noticeTaken {s n rest} hq h := by
    obtain ⟨hlen, harm⟩ := h
    rw [hq] at hlen
    exact ⟨Nat.le_of_succ_le hlen, harm⟩
  acknowledged {s} h := by
    obtain ⟨hlen, harm⟩ := h
    unfold ackAlert
    split_ifs with halert hquiet hempty
    · exact ⟨hlen, harm⟩
    · exact ⟨hlen, fun ha => by simp_all⟩
    · exact ⟨hlen, nofun⟩
    all_goals exact ⟨hlen, nofun⟩
  ticks _ _ _ h := h

theorem isListed_eq_false_iff {s : State} {hostLine : Nat} :
    isListed s hostLine = false ↔ ∀ x ∈ s.suspects, x.hostLine ≠ hostLine := by
  simp [Tracked.isListed_eq_any]

theorem isLocked_eq_false_iff {s : State} {hostLine : Nat} :
    isLocked s hostLine = false ↔ ∀ j ∈ s.queue, j.hostLine ≠ hostLine := by
  simp [isLocked]

theorem closed_suspectLaw : Closed SuspectLaw fun _ _ => True := by
  repeat' constructor
  case alert =>
    intro s h
    obtain ⟨n, hn⟩ := alertRequest_eq s
    rw [hn]
    exact h
  case headChanges =>
    intro s f _ h
    obtain ⟨q, hq⟩ := updateHead_eq s f
    rw [hq]
    exact h
  case suspectJoins =>
    intro s x hnot hlt ⟨_, hnodup⟩
    refine ⟨by simpa using hlt, ?_⟩
    rw [List.map_append, List.map_singleton]
    refine nodup_append_singleton hnodup fun hmem => ?_
    obtain ⟨e, he, hline⟩ := List.mem_map.mp hmem
    exact isListed_eq_false_iff.mp hnot e he hline
  case suspectReplaces =>
    intro s v x hv hnot ⟨hlen, hnodup⟩
    refine ⟨?_, ?_⟩
    · have hlt : (s.suspects.filter fun e => e.hostLine != v.hostLine).length < s.suspects.length :=
        List.length_filter_lt_length_iff_exists.mpr ⟨v, hv, by simp⟩
      simp only [List.length_append, List.length_cons, List.length_nil]
      omega
    · rw [List.map_append, List.map_singleton]
      refine nodup_append_singleton (hnodup.sublist (List.filter_sublist.map _)) fun hmem => ?_
      obtain ⟨e, he, hline⟩ := List.mem_map.mp hmem
      exact isListed_eq_false_iff.mp hnot e (List.mem_of_mem_filter he) hline
  case suspectsChange =>
    intro s f hf ⟨hlen, hnodup⟩
    refine ⟨by simpa using hlen, ?_⟩
    have hline : Suspect.hostLine ∘ f = Suspect.hostLine := funext hf
    rwa [List.map_map, hline]
  case suspectLeaves =>
    exact fun _ ⟨hlen, hnodup⟩ =>
      ⟨(List.length_filter_le _ _).trans hlen, hnodup.sublist (List.filter_sublist.map _)⟩
  -- The other changes leave the Suspect List as it is.
  all_goals
    intros
    trivial

theorem arrivals_suspectLaw : Arrivals SuspectLaw where
  pins _ h := h
  pendingTo _ h := h
  lineReleased h := h
  admitted _ _ _ _ _ h := h
  entryLeaves _ h := h
  linkReset h := h
  settings _ _ _ _ h := h
  noticeTaken _ h := h
  acknowledged {s} h := by
    obtain ⟨n, hn⟩ := ackAlert_eq s
    rw [hn]
    exact h
  ticks _ _ _ h := h

theorem nodup_map_hostLine_newJob {s : State} {hostLine : Nat} {o : Origin} {data : Option LineData} {tag : Option Tag}
    (hnot : isLocked s hostLine = false) (hnodup : (s.queue.map Job.hostLine).Nodup) :
    ((s.queue ++ [newJob s hostLine o data tag]).map Job.hostLine).Nodup := by
  rw [List.map_append, List.map_singleton]
  refine nodup_append_singleton hnodup fun hmem => ?_
  obtain ⟨j, hj, hline⟩ := List.mem_map.mp hmem
  exact isLocked_eq_false_iff.mp hnot j hj hline

/-- A change of each job that keeps its line keeps the list of lines. -/
theorem map_hostLine_map {f : Job → Job} (hf : ∀ j, (f j).hostLine = j.hostLine) (q : List Job) :
    (q.map f).map Job.hostLine = q.map Job.hostLine := by
  rw [List.map_map, show Job.hostLine ∘ f = Job.hostLine from funext hf]

theorem adopted_hostLine (hostLine : Nat) (data : LineData) (tag : Option Tag) (j : Job) :
    (if j.hostLine = hostLine then { j with source := .buffer, buffer := some data, originator := tag } else j).hostLine
      = j.hostLine := by
  split <;> rfl

theorem closed_queueLaw : Closed QueueLaw fun _ _ => True := by
  repeat' constructor
  case alert =>
    intro s h
    obtain ⟨n, hn⟩ := alertRequest_eq s
    rw [hn]
    exact h
  case jobJoins =>
    exact fun hostLine o data tag _ hnot hlt ⟨_, hnodup⟩ =>
      ⟨by simpa using hlt, nodup_map_hostLine_newJob hnot hnodup⟩
  case adopts =>
    intro s hostLine data tag ⟨hlen, hnodup⟩
    refine ⟨by simpa [adopt] using hlen, ?_⟩
    rwa [adopt, map_hostLine_map (adopted_hostLine hostLine data tag)]
  case headChanges =>
    intro s f hf h
    unfold updateHead
    split
    · exact h
    · next j rest hq => simpa [QueueLaw, hq, hf] using h
  case headLeaves =>
    intro s j rest hq ⟨hlen, hnodup⟩
    rw [hq] at hlen hnodup
    exact ⟨Nat.le_of_succ_le hlen, (List.nodup_cons.mp hnodup).2⟩
  -- The other changes leave the Retirement Queue as it is.
  all_goals
    intros
    trivial

theorem arrivals_queueLaw : Arrivals QueueLaw where
  pins _ h := h
  pendingTo _ h := h
  lineReleased h := h
  admitted _ _ _ _ _ h := h
  entryLeaves _ h := h
  linkReset {s} h := by
    refine ⟨by simpa [linkResetValues] using h.1, ?_⟩
    exact (map_hostLine_map (f := fun j => { j with originator := none }) (fun _ => rfl) s.queue).symm ▸ h.2
  settings _ _ _ _ h := h
  noticeTaken _ h := h
  acknowledged {s} h := by
    obtain ⟨n, hn⟩ := ackAlert_eq s
    rw [hn]
    exact h
  ticks _ _ _ h := h

theorem closed_passedOverLaw : Closed PassedOverLaw fun _ _ => True := by
  repeat' constructor
  case alert =>
    intro s h
    obtain ⟨n, hn⟩ := alertRequest_eq s
    rw [hn]
    exact h
  case passedZero => exact fun _ => Nat.zero_le _
  case passedRise => exact fun _ hlt => hlt
  case headChanges =>
    intro s f _ h
    obtain ⟨q, hq⟩ := updateHead_eq s f
    rw [hq]
    exact h
  -- The other changes leave the passed-over count as it is.
  all_goals
    intros
    trivial

theorem arrivals_passedOverLaw : Arrivals PassedOverLaw where
  pins _ h := h
  pendingTo _ h := h
  lineReleased h := h
  admitted _ _ _ _ _ h := h
  entryLeaves _ h := h
  linkReset h := h
  settings _ _ _ _ h := h
  noticeTaken _ h := h
  acknowledged {s} h := by
    obtain ⟨n, hn⟩ := ackAlert_eq s
    rw [hn]
    exact h
  ticks _ _ _ h := h

theorem closed_settingsLaw : Closed SettingsLaw fun _ _ => True := by
  repeat' constructor
  case alert =>
    intro s h
    obtain ⟨n, hn⟩ := alertRequest_eq s
    rw [hn]
    exact h
  case headChanges =>
    intro s f _ h
    obtain ⟨q, hq⟩ := updateHead_eq s f
    rw [hq]
    exact h
  -- The other changes leave the settings and the straps as they are.
  all_goals
    intros
    trivial

/-- A setting that WRITE_SETTING accepts lies in its range, and the others stay in theirs (R198, R199). -/
theorem settingsLaw_of_writtenSettings {s : State} {st : Settings} {index : Byte} {value : BitVec 32}
    (hst : writtenSettings s.settings (hostLines s) index value = some st) (h : SettingsLaw s) :
    SettingsLaw { s with settings := st } := by
  obtain ⟨hinterval, hregion, hend, hheavy, hsoft, hmark, hpace, hmask⟩ := h
  have hsame : hostLines { s with settings := st } = hostLines s := rfl
  unfold SettingsLaw
  rw [hsame]
  unfold writtenSettings at hst
  dsimp only at hst
  split at hst
  case h_13 => cases hst
  all_goals
    split_ifs at hst
    all_goals
      cases hst
      refine ⟨?_, ?_, ?_, ?_, ?_, ?_, ?_, ?_⟩
  all_goals
    dsimp only
    simp_all

theorem arrivals_settingsLaw : Arrivals SettingsLaw where
  pins _ h := h
  pendingTo _ h := h
  lineReleased h := h
  admitted _ _ _ _ _ h := h
  entryLeaves _ h := h
  linkReset h := h
  settings _ _ _ hst h := settingsLaw_of_writtenSettings hst h
  noticeTaken _ h := h
  acknowledged {s} h := by
    obtain ⟨n, hn⟩ := ackAlert_eq s
    rw [hn]
    exact h
  ticks _ _ _ h := h

theorem settingsLaw_powerUpValues (straps : BitVec 2) (s : State) : SettingsLaw (powerUpValues straps s) := by
  have hend : hostLinesOf straps - 1 < hostLinesOf straps := by
    revert straps
    decide
  exact ⟨(by decide : 100 ≤ 65535), Nat.zero_le _, hend, (by decide : 2 ≤ 3 ∧ 3 ≤ 8), (by decide : 1 ≤ 8 ∧ 8 ≤ 255),
    (by decide : 64 ≤ 1023), (by decide : 8 ≤ 64 ∧ 64 ≤ 255), (by decide : (0x8230#16).getLsbD 0 = false)⟩

/-! ### The law of the Request Table -/

/-- No entry of the table older than the entry of this tag is of its line: what `TableLaw` says of an entry that is not
WAITING. -/
def OldestOfLine (keys : List (Tag × Nat)) (tag : Tag) : Prop :=
  keys.Pairwise fun older younger => younger.1 = tag → older.2 ≠ younger.2

theorem eq_of_mem_of_tag_eq {l : List Entry} (hnodup : (l.map Entry.tag).Nodup) {a b : Entry} (ha : a ∈ l) (hb : b ∈ l)
    (htag : a.tag = b.tag) : a = b :=
  List.inj_on_of_nodup_map hnodup ha hb htag

/-- The first entry of a line has no older entry of its line. -/
theorem oldest_of_find? {l : List Entry} {hostLine : Nat} {e : Entry} (hnodup : (l.map Entry.tag).Nodup)
    (hfirst : l.find? (·.hostLine == hostLine) = some e) :
    l.Pairwise fun older younger => younger.tag = e.tag → older.hostLine ≠ younger.hostLine := by
  induction l with
  | nil => exact .nil
  | cons x xs ih =>
    obtain ⟨hx, hxs⟩ := List.nodup_cons.mp hnodup
    have hline : e.hostLine = hostLine := by simpa using List.find?_some hfirst
    by_cases hp : x.hostLine = hostLine
    · obtain rfl : x = e := by simpa [hp] using hfirst
      have hother : ∀ b ∈ xs, b.tag ≠ x.tag := fun b hb htag => hx (htag ▸ List.mem_map_of_mem hb)
      exact .cons (fun b hb htag => absurd htag (hother b hb))
        (List.pairwise_of_forall_mem_list fun a _ b hb htag => absurd htag (hother b hb))
    · have hrest : xs.find? (·.hostLine == hostLine) = some e := by simpa [hp] using hfirst
      refine .cons (fun b hb htag hsame => ?_) (ih hxs hrest)
      have hbe : b = e := eq_of_mem_of_tag_eq hxs hb (List.mem_of_find?_eq_some hrest) htag
      exact hp (hsame.trans (hbe ▸ hline))

/-- The table whose entries change by `f` meets the law again where WAITING entries behind another of their line stay
WAITING. -/
theorem tableLaw_map {s : State} {f : Entry → Entry} (hf : ∀ e, (f e).tag = e.tag ∧ (f e).hostLine = e.hostLine)
    (hwait : s.channel.table.Pairwise fun older younger =>
      older.hostLine = younger.hostLine → younger.state = .waiting → (f younger).state = .waiting) (h : TableLaw s) :
    TableLaw { s with channel := { s.channel with table := s.channel.table.map f } } := by
  obtain ⟨hnodup, hbehind⟩ := h
  have htags : Entry.tag ∘ f = Entry.tag := funext fun e => (hf e).1
  refine ⟨?_, ?_⟩
  · rwa [List.map_map, htags]
  · refine List.pairwise_map.mpr (hwait.imp₂ (fun a b hw hb hline => ?_) hbehind)
    rw [(hf a).2, (hf b).2] at hline
    exact hw hline (hb hline)

theorem closed_tableLaw : Closed TableLaw OldestOfLine := by
  repeat' constructor
  case alert =>
    intro s h
    obtain ⟨n, hn⟩ := alertRequest_eq s
    rw [hn]
    exact h
  case headChanges =>
    intro s f _ h
    obtain ⟨q, hq⟩ := updateHead_eq s f
    rw [hq]
    exact h
  case entryChanges =>
    intro s tag f hf hold h
    refine tableLaw_map (fun e => ?_) ?_ h
    · split
      · exact ⟨(hf e).1, (hf e).2.1⟩
      · exact ⟨rfl, rfl⟩
    · refine (List.pairwise_map.mp hold).imp fun {a b} hne hline hw => ?_
      rwa [if_neg fun htag => hne htag hline]
  case entriesLock =>
    refine fun hostLine h => tableLaw_map (fun e => ?_) (List.pairwise_of_forall fun a b _ hw => ?_) h
    · exact ⟨(Tracked.lockEntry_keepsKey hostLine e).1, (Tracked.lockEntry_keepsKey hostLine e).2.1⟩
    · simp [lockEntry, hw]
  case entriesUnlock =>
    refine fun hostLine h => tableLaw_map (fun e => ?_) (List.pairwise_of_forall fun a b _ hw => ?_) h
    · exact ⟨(Tracked.unlockEntry_keepsKey hostLine e).1, (Tracked.unlockEntry_keepsKey hostLine e).2.1⟩
    · simp [unlockEntry, hw]
  case evidence =>
    intro s e ⟨hnodup, hbehind⟩ he hactive
    refine List.pairwise_map.mpr (hbehind.imp_of_mem fun {a b} _ hb hw htag hline => ?_)
    have hbe : b = e := eq_of_mem_of_tag_eq hnodup hb he htag
    exact hactive (hbe ▸ hw hline)
  case evidenceFirst =>
    exact fun ⟨hnodup, _⟩ hfirst => List.pairwise_map.mpr (oldest_of_find? hnodup hfirst)
  -- The other changes leave the Request Table as it is.
  all_goals
    intros
    trivial

/-- A request behind an older one of its line waits (R37, R39). -/
theorem firstState_of_line_in_table {s : State} {hostLine : Nat} {r : Request} {e : Entry} (he : e ∈ s.channel.table)
    (hline : e.hostLine = hostLine) : firstState s hostLine r = .waiting := by
  have hany : s.channel.table.any (·.hostLine == hostLine) = true := List.any_eq_true.mpr ⟨e, he, by simpa using hline⟩
  simp [firstState, hany]

/-- A tag that is not in use names no entry (R36). -/
theorem entryOf_eq_none_iff {s : State} {tag : Tag} : entryOf s tag = none ↔ ∀ e ∈ s.channel.table, e.tag ≠ tag := by
  simp [entryOf]

theorem arrivals_tableLaw : Arrivals TableLaw where
  pins _ h := h
  pendingTo _ h := h
  lineReleased h := h
  admitted {s} tag hostLine r hfree _ h := by
    obtain ⟨hnodup, hbehind⟩ := h
    refine ⟨?_, ?_⟩
    · rw [admitRequest, List.map_append, List.map_singleton]
      refine nodup_append_singleton hnodup fun hmem => ?_
      obtain ⟨e, he, htag⟩ := List.mem_map.mp hmem
      exact entryOf_eq_none_iff.mp hfree e he htag
    · refine List.pairwise_append.mpr ⟨hbehind, List.pairwise_singleton _ _, fun older hold younger hyoung hline => ?_⟩
      obtain rfl := List.mem_singleton.mp hyoung
      exact firstState_of_line_in_table hold hline
  entryLeaves _ h := ⟨h.1.sublist (List.filter_sublist.map _), h.2.sublist List.filter_sublist⟩
  linkReset _ := ⟨List.nodup_nil, .nil⟩
  settings _ _ _ _ h := h
  noticeTaken _ h := h
  acknowledged {s} h := by
    obtain ⟨n, hn⟩ := ackAlert_eq s
    rw [hn]
    exact h
  ticks _ _ _ h := h

/-- A step keeps what the elementary changes keep and the two resets give. -/
theorem Closed.keptByStep {P : State → Prop} {Ev : List (Tag × Nat) → Tag → Prop} {s t : State} (k : Closed P Ev)
    (a : Arrivals P) (hUp : ∀ u straps, P (powerUpValues straps u)) (hRestart : ∀ u, P u → P (restartValues u))
    (hClear : ∀ u : State, P u → P { u with counters := .zero }) (h : P s) (ht : step s = .next t) : P t := by
  have rebuilt : ∀ u, P u → P (Machine.beginRebuild u) := fun u hu => by
    obtain ⟨j, heq⟩ := beginRebuild_eq u
    exact heq ▸ k.journal j hu
  exact (k.kept a).step (fun u straps _ => rebuilt _ (hUp u straps)) (fun u hu => rebuilt _ (hRestart u hu)) hClear h ht

/-- Settles O58: each law is kept by the elementary changes, and so by every step. -/
theorem capacityAndTableLawsAreKept : Obligations.CapacityAndTableLawsAreKept := by
  intro s t ht
  refine ⟨fun h => ?notices, fun h => ?suspects, fun h => ?queue, fun h => ?table, fun h => ?passedOver,
    fun h => ?settings⟩
  case notices =>
    have hempty : ([] : List Notice).length ≤ 32 := Nat.zero_le _
    exact closed_noticeLaw.keptByStep arrivals_noticeLaw (fun _ _ => ⟨hempty, nofun⟩) (fun _ _ => ⟨hempty, nofun⟩)
      (fun _ h => h) h ht
  case suspects =>
    have hempty : ([] : List Suspect).length ≤ 64 := Nat.zero_le _
    exact closed_suspectLaw.keptByStep arrivals_suspectLaw (fun _ _ => ⟨hempty, List.nodup_nil⟩)
      (fun _ _ => ⟨hempty, List.nodup_nil⟩) (fun _ h => h) h ht
  case queue =>
    have hempty : ([] : List Job).length ≤ 8 := Nat.zero_le _
    exact closed_queueLaw.keptByStep arrivals_queueLaw (fun _ _ => ⟨hempty, List.nodup_nil⟩)
      (fun _ _ => ⟨hempty, List.nodup_nil⟩) (fun _ h => h) h ht
  case table =>
    exact closed_tableLaw.keptByStep arrivals_tableLaw (fun _ _ => ⟨List.nodup_nil, .nil⟩)
      (fun _ _ => ⟨List.nodup_nil, .nil⟩) (fun _ h => h) h ht
  case passedOver =>
    exact closed_passedOverLaw.keptByStep arrivals_passedOverLaw (fun _ _ => Nat.zero_le 16) (fun _ _ => Nat.zero_le 16)
      (fun _ h => h) h ht
  case settings =>
    exact closed_settingsLaw.keptByStep arrivals_settingsLaw (fun u straps => settingsLaw_powerUpValues straps u)
      (fun _ h => h) (fun _ h => h) h ht

end Laws

/-! ### The counters (O60) -/

section Counters

theorem countersRise_trans {a b c : Counters} (hab : CountersRise a b) (hbc : CountersRise b c) : CountersRise a c := by
  unfold CountersRise at *
  generalize a.inOrder = x, b.inOrder = y, c.inOrder = z at *
  exact List.forall₂_iff_get.mpr ⟨hab.length_eq.trans hbc.length_eq, fun i hi hj =>
    (hab.get hi (hab.length_eq ▸ hi)).trans (hbc.get (hab.length_eq ▸ hi) hj)⟩

/-- An admission raises one counter by one. -/
theorem countersRise_countRequest (r : Request) (c : Counters) : CountersRise c (countRequest r c) := by
  cases r <;> simp [CountersRise, Counters.inOrder, countRequest, Noticed.satInc_le]

theorem closed_countersRise (c : Counters) : Closed (fun t => CountersRise c t.counters) fun _ _ => True := by
  repeat' constructor
  case alert =>
    intro s h
    obtain ⟨n, hn⟩ := alertRequest_eq s
    rw [hn]
    exact h
  case counters => exact fun _ hrise h => countersRise_trans h hrise
  case headChanges =>
    intro s f _ h
    obtain ⟨q, hq⟩ := updateHead_eq s f
    rw [hq]
    exact h
  -- The other changes leave the counters as they are.
  all_goals
    intros
    trivial

theorem arrivals_countersRise (c : Counters) : Arrivals fun t => CountersRise c t.counters where
  pins _ h := h
  pendingTo _ h := h
  lineReleased h := h
  admitted _ _ r _ _ h := countersRise_trans h (countersRise_countRequest r _)
  entryLeaves _ h := h
  linkReset h := h
  settings _ _ _ _ h := h
  noticeTaken _ h := h
  acknowledged {s} h := by
    obtain ⟨n, hn⟩ := ackAlert_eq s
    rw [hn]
    exact h
  ticks _ _ _ h := h

/-- Settles O60: the elementary changes raise counters alone, and the clear and the two resets are excluded. -/
theorem countersOnlyRise : Obligations.CountersOnlyRise := by
  intro s t ht hno k x y hx hy
  have kept := (closed_countersRise s.counters).kept (arrivals_countersRise s.counters)
  have hrefl : CountersRise s.counters s.counters := Noticed.CountersRise.refl _
  have hrise : CountersRise s.counters t.counters := by
    refine kept.step_of_exec (fun c rest hp hc => ?_) hrefl ht
    obtain ⟨hclear, hrestart, hup⟩ := hno c rest hp
    exact kept.exec (fun straps e => absurd e (hup straps)) (fun e => absurd e hrestart) (fun _ _ e => absurd e hclear)
      (s := { s with pending := rest }) hrefl hc
  obtain ⟨hk, rfl⟩ := List.getElem?_eq_some_iff.mp hx
  obtain ⟨hk', rfl⟩ := List.getElem?_eq_some_iff.mp hy
  exact hrise.get hk hk'

end Counters

end Sys2Proof.Machine

/-! ### The map and the pool at a commit and at a replayed record (R8, R9, R17) -/

namespace Sys2Proof.Machine

section MapLaw

open Sys2Proof.Safety

variable {s : State} {e x : MapEntry} {old : Spare}

theorem spareState_setSpare (i k : Spare) (st : SpareState) (s : State) :
    spareState (setSpare i st s) k = if i = k then st else spareState s k := by
  simp only [spareState, setSpare, Vector.getElem_set]
  exact if_congr Fin.ext_iff.symm rfl rfl

@[simp] theorem spareState_putEntry (k : Spare) (e : MapEntry) (s : State) :
    spareState (putEntry e s) k = spareState s k := rfl

theorem entries_putEntry_of_unmapped (h : mapEntry s e.hostLine = none) :
    (putEntry e s).lineMap.entries = s.lineMap.entries ++ [e] := by
  simp [putEntry, h]

theorem entries_putEntry_of_mapped (h : mapEntry s e.hostLine = some x) :
    (putEntry e s).lineMap.entries = s.lineMap.entries.map fun y => if y.hostLine = e.hostLine then e else y := by
  simp [putEntry, h]

/-- An entry made for a line without one, with a spare not IN_USE that becomes IN_USE, keeps the law of the map. -/
theorem mapLaw_place (hmap : MapLaw s) (hnone : mapEntry s e.hostLine = none) (hspare : spareState s e.spare ≠ .inUse) :
    MapLaw (setSpare e.spare .inUse (putEntry e s)) := by
  obtain ⟨hlines, hspares, huse⟩ := hmap
  have hfree : e.spare ∉ s.lineMap.entries.map MapEntry.spare := fun hmem => hspare ((huse _).mpr hmem)
  have hline : e.hostLine ∉ s.lineMap.entries.map MapEntry.hostLine := fun hmem => by
    obtain ⟨y, hy, heq⟩ := List.mem_map.mp hmem
    exact mapEntry_eq_none_iff.mp hnone y hy heq
  simp only [MapLaw, setSpare_entries, entries_putEntry_of_unmapped hnone, List.map_append, List.map_singleton,
    spareState_setSpare, spareState_putEntry]
  refine ⟨nodup_append_singleton hlines hline, nodup_append_singleton hspares hfree, fun i => ?_⟩
  rw [List.mem_append, List.mem_singleton, ← huse i]
  by_cases hi : e.spare = i
  · simp [hi]
  · simp [hi, Ne.symm hi]

/-- The entry of a line changed to a spare not IN_USE that becomes IN_USE, with its old spare DISCARDED, keeps the law of the
map. -/
theorem mapLaw_replace (hmap : MapLaw s) (hsome : mapEntry s e.hostLine = some x) (hold : x.spare = old)
    (hspare : spareState s e.spare ≠ .inUse) :
    MapLaw (setSpare old .discarded (setSpare e.spare .inUse (putEntry e s))) := by
  obtain ⟨hlines, hspares, huse⟩ := hmap
  obtain ⟨hx, hxline⟩ := mem_and_hostLine_of_mapEntry_eq_some hsome
  have hused : ∀ {y}, y ∈ s.lineMap.entries → y.spare ≠ e.spare := fun hy heq =>
    hspare ((huse _).mpr (heq ▸ List.mem_map_of_mem hy))
  have hsameLine : ∀ {y}, y ∈ s.lineMap.entries → y.hostLine = e.hostLine → y = x := fun hy hline =>
    List.inj_on_of_nodup_map hlines hy hx (hline.trans hxline.symm)
  have hsameSpare : ∀ {y}, y ∈ s.lineMap.entries → y.spare = old → y = x := fun hy heq =>
    List.inj_on_of_nodup_map hspares hy hx (heq.trans hold.symm)
  simp only [MapLaw, setSpare_entries, entries_putEntry_of_mapped hsome, spareState_setSpare, spareState_putEntry,
    List.map_map]
  refine ⟨?lines, ?spares, fun i => ?use⟩
  case lines =>
    have hkeep : (MapEntry.hostLine ∘ fun y => if y.hostLine = e.hostLine then e else y) = MapEntry.hostLine := by
      funext y
      simp only [Function.comp]
      split_ifs with hy
      · exact hy.symm
      · rfl
    rwa [hkeep]
  case spares =>
    refine hlines.of_map.map_on fun y hy z hz heq => ?_
    simp only [Function.comp] at heq
    split_ifs at heq with hyl hzl hzl
    · rw [hsameLine hy hyl, hsameLine hz hzl]
    · exact absurd heq.symm (hused hz)
    · exact absurd heq (hused hy)
    · exact List.inj_on_of_nodup_map hspares hy hz heq
  case use =>
    have hne : old ≠ e.spare := hold ▸ hused hx
    rw [List.mem_map]
    constructor
    · intro hi
      split_ifs at hi with hio his
      · exact ⟨x, hx, by simp [hxline, his]⟩
      · obtain ⟨y, hy, heq⟩ := List.mem_map.mp ((huse i).mp hi)
        have hyl : y.hostLine ≠ e.hostLine := fun hyl => hio (by rw [← hold, ← hsameLine hy hyl, heq])
        exact ⟨y, hy, by simp [hyl, heq]⟩
    · rintro ⟨y, hy, heq⟩
      simp only [Function.comp] at heq
      split_ifs at heq with hyl
      · rw [if_neg (heq ▸ hne), if_pos heq]
      · have hio : old ≠ i := fun hio => hyl (by rw [hsameSpare hy (heq.trans hio.symm), hxline])
        rw [if_neg hio, if_neg fun his => hused hy (heq.trans his.symm)]
        exact (huse i).mpr (heq ▸ List.mem_map_of_mem hy)

/-- A spare not IN_USE that passes to a state other than IN_USE leaves the law of the map as it is. -/
theorem mapLaw_setSpare {i : Spare} {st : SpareState} (hmap : MapLaw s) (hbefore : spareState s i ≠ .inUse)
    (hafter : st ≠ .inUse) : MapLaw (setSpare i st s) := by
  obtain ⟨hlines, hspares, huse⟩ := hmap
  refine ⟨hlines, hspares, fun k => ?_⟩
  rw [spareState_setSpare, setSpare_entries, ← huse k]
  split_ifs with hk
  · exact ⟨fun h => absurd h hafter, fun h => absurd (hk ▸ h) hbefore⟩
  · rfl

theorem mapLaw_commitMap_retire {j : Job} {spare : Spare} (generation : BitVec 32) (hmap : MapLaw s)
    (hspare : spareState s spare = .reserved) (hkind : j.kind = .retire) (hnone : mapEntry s j.hostLine = none) :
    MapLaw (commitMap j spare generation s) := by
  simp only [commitMap, hkind]
  exact mapLaw_place hmap hnone (by simp [hspare])

theorem mapLaw_commitMap_reretire {j : Job} {spare : Spare} (generation : BitVec 32) (hmap : MapLaw s)
    (hspare : spareState s spare = .reserved) (hkind : j.kind = .reretire old)
    (hsome : (mapEntry s j.hostLine).map MapEntry.spare = some old) : MapLaw (commitMap j spare generation s) := by
  obtain ⟨x, hx, hxold⟩ := Option.map_eq_some_iff.mp hsome
  simp only [commitMap, hkind]
  exact mapLaw_replace (e := ⟨j.hostLine, spare, j.origin, generation⟩) hmap hx hxold (by simp [hspare])

theorem recordFits_retire_iff {h : Nat} {n : Spare} :
    recordFits s (.retire h n) = true ↔ mapEntry s h = none ∧ spareState s n = .free := by
  simp [recordFits]

theorem recordFits_reretire_iff {h : Nat} {n o : Spare} :
    recordFits s (.reretire h n o) = true ↔ (mapEntry s h).map MapEntry.spare = some o ∧ spareState s n = .free := by
  simp [recordFits]

theorem recordFits_discard_iff {n : Spare} : recordFits s (.discard n) = true ↔ spareState s n = .free := by
  simp [recordFits]

theorem mapLaw_applyRecord {r : AppendRecord} (generation : BitVec 32) (hmap : MapLaw s)
    (hfits : recordFits s r = true) : MapLaw (applyRecord generation r s) := by
  cases r with
  | retire h n =>
    obtain ⟨hnone, hfree⟩ := recordFits_retire_iff.mp hfits
    exact mapLaw_place (e := ⟨h, n, .replay, generation⟩) hmap hnone (by simp [hfree])
  | reretire h n o =>
    obtain ⟨hsome, hfree⟩ := recordFits_reretire_iff.mp hfits
    obtain ⟨x, hx, hxo⟩ := Option.map_eq_some_iff.mp hsome
    exact mapLaw_replace (e := ⟨h, n, .replay, generation⟩) hmap hx hxo (by simp [hfree])
  | discard n => exact mapLaw_setSpare hmap (by simp [recordFits_discard_iff.mp hfits]) nofun

/-- Settles O46, from an entry made and an entry changed. -/
theorem commitAndReplayKeepTheMapLaw : Obligations.CommitAndReplayKeepTheMapLaw := fun _ hmap =>
  ⟨fun _ _ generation hspare =>
    ⟨mapLaw_commitMap_retire generation hmap hspare, fun _ => mapLaw_commitMap_reretire generation hmap hspare⟩,
    fun _ generation => mapLaw_applyRecord generation hmap⟩

end MapLaw

end Sys2Proof.Machine

/-! ### The laws of the map, the pool and the generation (O59)

`JobsLaw` holds what the steps of a job keep together. It is kept beside any property `Q` that is indifferent to them
(`Indifferent`): beside `WorkLaw`, the law of the journal's work, at the head job's own results, and beside `AtRest`, which has no
work of the journal in progress, while the journal answers an append. -/

namespace Sys2Proof.Machine

open Sys2Proof.Safety

variable {s t u : State} {j j' : Job} {rest : List Job}

/-! #### The jobs and the pool -/

/-- The law of the map, the law of reservations, and what the jobs and a pending DISCARD keep for them. -/
abbrev JobsLaw (s : State) : Prop := MapLaw s ∧ ReservationLaw s ∧ JobKindLaw s ∧ DiscardLaw s

/-- No DISCARD append is pending. -/
abbrev NoDiscard (s : State) : Prop := ∀ spare, s.journal.pending ≠ some (.discard spare)

/-- What the changes of entries, listings, notices and the patrol step leave as it is; a drained part passes to QUIET. -/
structure SameJobs (s t : State) : Prop where
  lineMap : t.lineMap = s.lineMap
  queue : t.queue = s.queue
  pending : t.journal.pending = s.journal.pending
  generation : t.journal.generation = s.journal.generation
  work : t.journal.work = s.journal.work
  opState : t.opState = s.opState ∨ s.opState = .quiescing ∧ t.opState = .quiet

theorem SameJobs.refl (s : State) : SameJobs s s := ⟨rfl, rfl, rfl, rfl, rfl, .inl rfl⟩

theorem SameJobs.trans (a : SameJobs s t) (b : SameJobs t u) : SameJobs s u where
  lineMap := b.lineMap.trans a.lineMap
  queue := b.queue.trans a.queue
  pending := b.pending.trans a.pending
  generation := b.generation.trans a.generation
  work := b.work.trans a.work
  opState := by
    rcases a.opState with ha | ⟨ha, ha'⟩
    · rw [← ha]
      exact b.opState
    · refine .inr ⟨ha, ?_⟩
      rcases b.opState with hb | ⟨hb, -⟩
      · rw [hb, ha']
      · rw [ha'] at hb
        cases hb

/-- A property that `SameJobs` carries over is kept by the changes of entries, listings, notices and the patrol step. -/
theorem tracked_of_sameJobs {P : State → Prop} (hP : ∀ {s t}, P s → SameJobs s t → P t) :
    Tracked P fun _ _ => True := by
  repeat' constructor
  case alert =>
    intro s h
    obtain ⟨n, hn⟩ := alertRequest_eq s
    rw [hn]
    exact hP h ⟨rfl, rfl, rfl, rfl, rfl, .inl rfl⟩
  case drained => exact fun ho h => hP h ⟨rfl, rfl, rfl, rfl, rfl, .inr ⟨ho, rfl⟩⟩
  case evidence => exact fun _ _ _ => trivial
  case evidenceFirst => exact fun _ _ => trivial
  -- The other changes leave the fields of `SameJobs` as they are.
  all_goals
    intros
    apply hP
    · assumption
    · exact ⟨rfl, rfl, rfl, rfl, rfl, .inl rfl⟩

theorem SameJobs.tracked (s : State) : Tracked (SameJobs s) fun _ _ => True := tracked_of_sameJobs SameJobs.trans

theorem SameJobs.good (s : State) : Good (SameJobs s) (tableKeys s) s := ⟨.refl s, rfl⟩

theorem SameJobs.jobsLaw (h : SameJobs s t) (hs : JobsLaw s) : JobsLaw t := by
  simpa only [JobsLaw, MapLaw, ReservationLaw, JobKindLaw, DiscardLaw, spareState, mapEntry, h.lineMap, h.queue,
    h.pending] using hs

theorem discardLaw_of_noDiscard (h : NoDiscard s) : DiscardLaw s := fun spare hp => absurd hp (h spare)

/-- A job that is QUEUED or FETCHING holds no spare (R101, R103). -/
theorem reserved_eq_none_of_head (h : JobsLaw s) (hq : s.queue = j :: rest) (hj : j.state = .queued ∨ j.state = .fetching) :
    j.reserved = none := by
  obtain ⟨_, ⟨_, hstate, _⟩, _, _⟩ := h
  by_contra hres
  have := hstate j (by rw [hq]; rfl) hres
  rcases hj with hj | hj <;> simp [hj] at this

/-- No DISCARD is pending while the head job holds a spare, or has not claimed one (R107). -/
theorem noDiscard_of_head (h : JobsLaw s) (hq : s.queue = j :: rest)
    (hj : j.reserved ≠ none ∨ j.state = .queued ∨ j.state = .fetching) : NoDiscard s := by
  obtain ⟨_, _, _, hdiscard⟩ := h
  intro spare hp
  obtain ⟨j', hhead, hres, hqueued, hfetching⟩ := hdiscard spare hp
  rw [hq] at hhead
  obtain rfl : j = j' := by simpa using hhead
  rcases hj with hj | hj | hj
  · exact hj hres
  · exact hqueued hj
  · exact hfetching hj

theorem noDiscard_of_empty (h : JobsLaw s) (hq : s.queue = []) : NoDiscard s := by
  obtain ⟨_, _, _, hdiscard⟩ := h
  intro spare hp
  obtain ⟨j, hhead, _⟩ := hdiscard spare hp
  simp [hq] at hhead

theorem jobsLaw_enqueue {hostLine : Nat} {o : Origin} {data : Option LineData} {tag : Option Tag} (h : JobsLaw s)
    (hnot : isLocked s hostLine = false) : JobsLaw { s with queue := s.queue ++ [newJob s hostLine o data tag] } := by
  obtain ⟨hmap, ⟨hreserved, hstate, htail⟩, ⟨hnodup, hkind⟩, hdiscard⟩ := id h
  have hkinds : ∀ j ∈ s.queue ++ [newJob s hostLine o data tag],
      (mapEntry s j.hostLine).map MapEntry.spare = j.kind.oldSpare := by
    intro j hj
    rcases List.mem_append.mp hj with hj | hj
    · exact hkind j hj
    · obtain rfl := List.mem_singleton.mp hj
      cases hm : mapEntry s hostLine <;> simp [newJob, hm, JobKind.oldSpare]
  refine ⟨hmap, ?_, ⟨nodup_map_hostLine_newJob hnot hnodup, hkinds⟩, ?_⟩
  · cases hq : s.queue with
    | nil =>
      rw [hq] at hreserved
      refine ⟨hreserved, fun j hj hres => ?_, nofun⟩
      obtain rfl := Option.some_inj.mp hj
      exact absurd rfl hres
    | cons j rest =>
      rw [hq] at hreserved hstate htail
      refine ⟨hreserved, hstate, fun x hx => ?_⟩
      rcases List.mem_append.mp hx with hx | hx
      · exact htail x hx
      · obtain rfl := List.mem_singleton.mp hx
        exact ⟨rfl, rfl⟩
  · cases hq : s.queue with
    | nil => exact discardLaw_of_noDiscard (noDiscard_of_empty (s := s) h hq)
    | cons j rest => simpa [DiscardLaw, hq] using hdiscard

/-- A change of the jobs' data, sources and originating requests keeps the laws. -/
theorem jobsLaw_map {f : Job → Job} (hline : ∀ j, (f j).hostLine = j.hostLine) (hkind : ∀ j, (f j).kind = j.kind)
    (hres : ∀ j, (f j).reserved = j.reserved) (hst : ∀ j, (f j).state = j.state) (h : JobsLaw s) :
    JobsLaw { s with queue := s.queue.map f } := by
  obtain ⟨hmap, ⟨hreserved, hstate, htail⟩, ⟨hnodup, hkinds⟩, hdiscard⟩ := h
  refine ⟨hmap, ⟨fun i => ?_, ?_, ?_⟩, ⟨?_, ?_⟩, ?_⟩
  · have hsame : (s.queue.map f).head?.bind Job.reserved = s.queue.head?.bind Job.reserved := by
      cases s.queue <;> simp [hres]
    exact hsame ▸ hreserved i
  · intro j hj hr
    obtain ⟨x, hx, rfl⟩ : ∃ x, s.queue.head? = some x ∧ f x = j := by simpa using hj
    rw [hres] at hr
    rw [hst]
    exact hstate x hx hr
  · intro j hj
    obtain ⟨x, hx, rfl⟩ : ∃ x ∈ s.queue.tail, f x = j := by simpa [← List.map_tail] using hj
    rw [hst, hres]
    exact htail x hx
  · rwa [map_hostLine_map hline]
  · intro j hj
    obtain ⟨x, hx, rfl⟩ := List.mem_map.mp hj
    rw [hline, hkind]
    exact hkinds x hx
  · intro spare hp
    obtain ⟨j, hj, hr, hqueued, hfetching⟩ := hdiscard spare hp
    exact ⟨f j, by simp [hj], by rwa [hres], by rwa [hst], by rwa [hst]⟩

/-- A change of the head job, with its spare, keeps the laws where the spare's state agrees with what it holds. -/
theorem jobsLaw_head {lineMap : LineMap} (h : JobsLaw s) (hq : s.queue = j :: rest) (hline : j'.hostLine = j.hostLine)
    (hkind : j'.kind = j.kind) (hentries : lineMap.entries = s.lineMap.entries)
    (hmap : MapLaw { s with lineMap := lineMap })
    (hres : ∀ i, spareState { s with lineMap := lineMap } i = .reserved ↔ j'.reserved = some i)
    (hstate : j'.reserved ≠ none → j'.state = .placing ∨ j'.state = .checking ∨ j'.state = .recording)
    (hdiscard : NoDiscard s ∨ j'.reserved = none ∧ j'.state ≠ .queued ∧ j'.state ≠ .fetching) :
    JobsLaw { s with lineMap := lineMap, queue := j' :: rest } := by
  obtain ⟨_, ⟨_, _, htail⟩, ⟨hnodup, hkinds⟩, _⟩ := h
  rw [hq] at htail hnodup hkinds
  refine ⟨hmap, ⟨hres, fun x hx => ?_, htail⟩, ⟨?_, fun x hx => ?_⟩, ?_⟩
  · obtain rfl : j' = x := by simpa using hx
    exact hstate
  · simpa [hline] using hnodup
  · have hsame : mapEntry { s with lineMap := lineMap, queue := j' :: rest } x.hostLine = mapEntry s x.hostLine := by
      simp [mapEntry, hentries]
    rw [hsame]
    rcases List.mem_cons.mp hx with rfl | hx
    · rw [hline, hkind]
      exact hkinds j List.mem_cons_self
    · exact hkinds x (List.mem_cons_of_mem _ hx)
  · rcases hdiscard with hno | ⟨hr, hqueued, hfetching⟩
    · exact discardLaw_of_noDiscard hno
    · exact fun _ _ => ⟨j', rfl, hr, hqueued, hfetching⟩

/-- The head job leaves, and a spare it holds is released (R14): the laws are kept. -/
theorem jobsLaw_release (h : JobsLaw s) (hq : s.queue = j :: rest) (hno : NoDiscard s) :
    JobsLaw { releaseSpare j s with queue := rest } := by
  obtain ⟨hmap, ⟨hreserved, _, htail⟩, ⟨hnodup, hkinds⟩, _⟩ := h
  rw [hq] at hreserved htail hnodup hkinds
  have hentries : (releaseSpare j s).lineMap.entries = s.lineMap.entries := by
    unfold releaseSpare
    split <;> rfl
  have hpending : (releaseSpare j s).journal = s.journal := by
    unfold releaseSpare
    split <;> rfl
  have hmap' : MapLaw (releaseSpare j s) := by
    unfold releaseSpare
    split
    · next spare hspare => exact mapLaw_setSpare hmap (by simp [(hreserved spare).mpr hspare]) nofun
    · exact hmap
  have hnone : ∀ i, spareState (releaseSpare j s) i ≠ .reserved := by
    intro i
    unfold releaseSpare
    split
    · next spare hspare =>
      rw [spareState_setSpare]
      split_ifs with hi
      · nofun
      · exact fun hr => hi (Option.some_inj.mp (hspare ▸ (hreserved i).mp hr))
    · next hspare => exact fun hr => by simpa [hspare] using (hreserved i).mp hr
  have hrest : rest.head?.bind Job.reserved = none := by
    cases rest with
    | nil => rfl
    | cons x xs => exact (htail x List.mem_cons_self).2
  refine ⟨hmap', ⟨fun i => ?_, fun x hx hr => ?_, fun x hx => htail x (List.mem_of_mem_tail hx)⟩, ⟨?_, fun x hx => ?_⟩, ?_⟩
  · rw [hrest]
    exact ⟨fun hr => absurd hr (hnone i), nofun⟩
  · exact absurd (htail x (List.mem_of_mem_head? hx)).2 hr
  · exact (List.nodup_cons.mp hnodup).2
  · have hsame : mapEntry { releaseSpare j s with queue := rest } x.hostLine = mapEntry s x.hostLine := by
      simp [mapEntry, hentries]
    rw [hsame]
    exact hkinds x (List.mem_cons_of_mem _ hx)
  · exact discardLaw_of_noDiscard (by simpa [NoDiscard, hpending] using hno)

/-- A spare that the head job gives back or takes leaves the other spares with no reservation. -/
theorem spareState_eq_reserved_iff (h : JobsLaw s) (hq : s.queue = j :: rest) (i : Spare) :
    spareState s i = .reserved ↔ j.reserved = some i := by
  obtain ⟨_, ⟨hreserved, _, _⟩, _, _⟩ := h
  simpa [hq] using hreserved i

/-- A reservation (R12): a FREE spare is RESERVED for the head job, which holds none. -/
theorem jobsLaw_reserve {i : Spare} {n : Nat} (h : JobsLaw s) (hq : s.queue = j :: rest) (hnone : j.reserved = none)
    (hno : NoDiscard s) (hfree : spareState s i = .free) :
    JobsLaw
      { setSpare i .reserved s with
        queue := { j with state := .placing, reserved := some i, attempts := n } :: rest } := by
  refine jobsLaw_head (s := s) (lineMap := (setSpare i .reserved s).lineMap) h hq rfl rfl rfl
    (mapLaw_setSpare h.1 (by simp [hfree]) nofun) (fun k => ?_) (fun _ => .inl rfl) (.inl hno)
  have hk := spareState_eq_reserved_iff h hq k
  rw [hnone] at hk
  show spareState (setSpare i .reserved s) k = .reserved ↔ some i = some k
  rw [spareState_setSpare]
  split_ifs with hik
  · simp [hik]
  · simp [hk, hik]

/-- A discard of the head job's spare (R107). -/
theorem jobsLaw_discard {i : Spare} (h : JobsLaw s) (hq : s.queue = j :: rest) (hheld : j.reserved = some i) :
    JobsLaw
      { setSpare i .discarded s with queue := { j with state := .placing, reserved := none } :: rest } := by
  refine jobsLaw_head (s := s) (lineMap := (setSpare i .discarded s).lineMap) h hq rfl rfl rfl
    (mapLaw_setSpare h.1 (by simp [(spareState_eq_reserved_iff h hq i).mpr hheld]) nofun) (fun k => ?_) nofun
    (.inr ⟨rfl, nofun, nofun⟩)
  have hk := spareState_eq_reserved_iff h hq k
  rw [hheld] at hk
  show spareState (setSpare i .discarded s) k = .reserved ↔ none = some k
  rw [spareState_setSpare]
  split_ifs with hik
  · simp
  · simp [hk, hik]

/-- A change of the head job's data or step alone. -/
theorem jobsLaw_step (h : JobsLaw s) (hq : s.queue = j :: rest) (hline : j'.hostLine = j.hostLine)
    (hkind : j'.kind = j.kind) (hres : j'.reserved = j.reserved)
    (hstate : j'.reserved ≠ none → j'.state = .placing ∨ j'.state = .checking ∨ j'.state = .recording)
    (hdiscard : NoDiscard s ∨ j'.reserved = none ∧ j'.state ≠ .queued ∧ j'.state ≠ .fetching) :
    JobsLaw { s with queue := j' :: rest } :=
  jobsLaw_head (lineMap := s.lineMap) h hq hline hkind rfl h.1
    (fun i => hres ▸ spareState_eq_reserved_iff h hq i) hstate hdiscard

/-- The spares after a commit (R9): the old one DISCARDED, the placed one IN_USE, the others as they were. -/
theorem spareState_commitMap {spare i : Spare} {generation : BitVec 32} :
    spareState (commitMap j spare generation s) i =
      if j.kind.oldSpare = some i then .discarded else if spare = i then .inUse else spareState s i := by
  unfold commitMap
  split
  · next hkind => simp [hkind, JobKind.oldSpare, spareState_setSpare]
  · next old hkind =>
    have hcount : ∀ t, spareState (countDiscarded t) i = spareState t i := fun _ => rfl
    simp [hkind, JobKind.oldSpare, hcount, spareState_setSpare]

@[simp] theorem commitMap_journal {spare : Spare} {generation : BitVec 32} :
    (commitMap j spare generation s).journal = s.journal := by
  unfold commitMap
  split <;> rfl

theorem find?_map_replace {e : MapEntry} {h : Nat} (hne : h ≠ e.hostLine) (l : List MapEntry) :
    (l.map fun y => if y.hostLine = e.hostLine then e else y).find? (·.hostLine == h) = l.find? (·.hostLine == h) := by
  induction l with
  | nil => rfl
  | cons y ys ih =>
    by_cases hy : y.hostLine = e.hostLine <;> simp [List.find?_cons, ih, hy, hne.symm]

/-- An entry made or changed for one line leaves the translation of every other. -/
theorem mapEntry_putEntry_of_ne {e : MapEntry} {h : Nat} (hne : h ≠ e.hostLine) :
    mapEntry (putEntry e s) h = mapEntry s h := by
  cases hm : mapEntry s e.hostLine with
  | none =>
    rw [mapEntry, entries_putEntry_of_unmapped hm, List.find?_append]
    simp [mapEntry, hne.symm]
  | some x =>
    rw [mapEntry, entries_putEntry_of_mapped hm]
    exact find?_map_replace hne _

theorem mapEntry_commitMap_of_ne {spare : Spare} {generation : BitVec 32} {h : Nat} (hne : h ≠ j.hostLine) :
    mapEntry (commitMap j spare generation s) h = mapEntry s h := by
  have hput := mapEntry_putEntry_of_ne (s := s) (e := ⟨j.hostLine, spare, j.origin, generation⟩) hne
  unfold commitMap
  split <;> exact hput

/-- The head job commits and leaves (R109). -/
theorem jobsLaw_commit {spare : Spare} {generation : BitVec 32} (h : JobsLaw s) (hq : s.queue = j :: rest)
    (hheld : j.reserved = some spare) (hno : NoDiscard s) :
    JobsLaw { commitMap j spare generation s with queue := rest } := by
  obtain ⟨hmap, ⟨_, _, htail⟩, ⟨hnodup, hkinds⟩, _⟩ := id h
  rw [hq] at htail hnodup hkinds
  have hreserved := spareState_eq_reserved_iff h hq
  have hspare : spareState s spare = .reserved := (hreserved spare).mpr hheld
  have hkind := hkinds j List.mem_cons_self
  have hmap' : MapLaw (commitMap j spare generation s) := by
    cases hk : j.kind with
    | retire => exact mapLaw_commitMap_retire _ hmap hspare hk (by simpa [hk, JobKind.oldSpare] using hkind)
    | reretire old => exact mapLaw_commitMap_reretire _ hmap hspare hk (by simpa [hk, JobKind.oldSpare] using hkind)
  have hnone : ∀ i, spareState (commitMap j spare generation s) i ≠ .reserved := by
    intro i
    rw [spareState_commitMap]
    split_ifs with hold hi
    · nofun
    · nofun
    · exact fun hr => hi (Option.some_inj.mp (hheld ▸ (hreserved i).mp hr))
  have hrest : rest.head?.bind Job.reserved = none := by
    cases rest with
    | nil => rfl
    | cons x xs => exact (htail x List.mem_cons_self).2
  refine ⟨hmap', ⟨fun i => ?_, fun x hx hr => ?_, fun x hx => htail x (List.mem_of_mem_tail hx)⟩, ⟨?_, fun x hx => ?_⟩, ?_⟩
  · rw [hrest]
    exact ⟨fun hr => absurd hr (hnone i), nofun⟩
  · exact absurd (htail x (List.mem_of_mem_head? hx)).2 hr
  · exact (List.nodup_cons.mp hnodup).2
  · have hne : x.hostLine ≠ j.hostLine := fun heq =>
      (List.nodup_cons.mp hnodup).1 (heq ▸ List.mem_map_of_mem hx)
    have hsame : mapEntry { commitMap j spare generation s with queue := rest } x.hostLine = mapEntry s x.hostLine :=
      mapEntry_commitMap_of_ne hne
    rw [hsame]
    exact hkinds x (List.mem_cons_of_mem _ hx)
  · exact discardLaw_of_noDiscard (by simpa [NoDiscard] using hno)

end Sys2Proof.Machine

namespace Sys2Proof.Machine

open Sys2Proof.Safety

variable {s t u a : State} {j j' : Job} {rest : List Job} {Q : State → Prop}

/-! #### The steps and endings of a job, beside a property that is indifferent to them -/

/-- The head job leaves, in a state that has the jobs and the pool of `a`. -/
theorem sameJobs_dequeue (h : SameJobs a s) (hq : a.queue = j :: rest) :
    SameJobs { a with queue := rest } (dequeue s) := by
  have hs : s.queue = j :: rest := h.queue.trans hq
  simp only [dequeue, hs]
  exact ⟨h.lineMap, rfl, h.pending, h.generation, h.work, h.opState⟩

theorem sameJobs_endFailed (hq : s.queue = j :: rest) :
    SameJobs { releaseSpare j s with queue := rest } (endFailed s) := by
  have hqueue : (releaseSpare j s).queue = j :: rest := by
    unfold releaseSpare
    split <;> exact hq
  have tr := SameJobs.tracked (releaseSpare j s)
  have told := tr.handBack j (tr.countFailed (tr.listSuspect j.hostLine .deferred j.origin
    (tr.raise (SameJobs.good (releaseSpare j s)) (kind := .retireFailed) (hostLine := some j.hostLine) (spare := none)
      (oldSpare := none) (values := [val 2]))))
  have tr' := SameJobs.tracked { releaseSpare j s with queue := rest }
  simp only [endFailed, hq]
  exact (tr'.drainCheck ⟨sameJobs_dequeue told.prop hqueue, rfl⟩).prop

theorem sameJobs_raise {kind hostLine spare oldSpare values} : SameJobs s (raise kind hostLine spare oldSpare values s) :=
  ((SameJobs.tracked s).raise (SameJobs.good s)).prop

theorem spareState_of_lowestFree {i : Spare} (h : lowestFree s = some i) : spareState s i = .free := by
  simpa using List.find?_some h

/-- `Q` is kept by what `SameJobs` allows, by an enqueue, and by a change of the jobs and the map while a job is queued. -/
structure Indifferent (Q : State → Prop) : Prop where
  same : ∀ {s t}, Q s → SameJobs s t → Q t
  enqueues : ∀ {s} q, s.opState = .ready → Q s → Q { s with queue := q }
  jobs : ∀ {s} m q, s.queue ≠ [] → Q s → Q { s with lineMap := m, queue := q }

/-- The laws of the jobs, beside `Q`. -/
abbrev JobsAnd (Q : State → Prop) (s : State) : Prop := JobsLaw s ∧ Q s

namespace Indifferent

theorem keep (q : Indifferent Q) (h : JobsAnd Q s) (hst : SameJobs s t) : JobsAnd Q t :=
  ⟨hst.jobsLaw h.1, q.same h.2 hst⟩

theorem tracked (q : Indifferent Q) : Tracked (JobsAnd Q) fun _ _ => True := tracked_of_sameJobs q.keep

theorem queued (q : Indifferent Q) : Queued (JobsAnd Q) fun _ _ => True where
  toTracked := q.tracked
  jobJoins _ _ _ _ ho hnot _ h := ⟨jobsLaw_enqueue h.1 hnot, q.enqueues _ ho h.2⟩
  adopts {s} hostLine data tag h := by
    have hjobs : JobsLaw (adopt hostLine data tag s) :=
      jobsLaw_map (adopted_hostLine hostLine data tag) (fun j => by split <;> rfl) (fun j => by split <;> rfl)
        (fun j => by split <;> rfl) h.1
    refine ⟨hjobs, ?_⟩
    by_cases hq : s.queue = []
    · exact q.same h.2 ⟨rfl, by simp [adopt, hq], rfl, rfl, rfl, .inl rfl⟩
    · exact q.jobs s.lineMap _ hq h.2

/-- A FAILED ending of the head job keeps the laws where no DISCARD waits for its answer (R112). -/
theorem endFailed (q : Indifferent Q) (hq : s.queue = j :: rest) (hno : NoDiscard s) (h : JobsAnd Q s) :
    JobsAnd Q (endFailed s) := by
  have hrelease : Q { releaseSpare j s with queue := rest } := by
    unfold releaseSpare
    split
    · exact q.jobs (s := s) _ rest (by simp [hq]) h.2
    · exact q.jobs s.lineMap rest (by simp [hq]) h.2
  exact q.keep ⟨jobsLaw_release h.1 hq hno, hrelease⟩ (sameJobs_endFailed hq)

/-- The laws where the head job has left without a spare. -/
theorem leave (q : Indifferent Q) (hq : s.queue = j :: rest) (hnone : j.reserved = none) (hno : NoDiscard s)
    (h : JobsAnd Q s) : JobsAnd Q { s with queue := rest } := by
  have hsame : releaseSpare j s = s := by simp [releaseSpare, hnone]
  exact ⟨hsame ▸ jobsLaw_release h.1 hq hno, q.jobs s.lineMap rest (by simp [hq]) h.2⟩

/-- A promotion and the drain check end an ending without a spare (R86, R154). -/
theorem promoteAndDrain (q : Indifferent Q) (h : JobsAnd Q s) : JobsAnd Q (drainCheck (promote s)) :=
  (q.queued.drainCheck (q.queued.promote (Kept.good h))).prop

theorem endUnplaced (q : Indifferent Q) (notice : Nat → State → State) (hnotice : ∀ h t, SameJobs t (notice h t))
    (hq : s.queue = j :: rest) (hnone : j.reserved = none) (hno : NoDiscard s) (h : JobsAnd Q s) :
    JobsAnd Q (endUnplaced notice s) := by
  have tr := SameJobs.tracked s
  have told := tr.handBack j (tr.countFailed (tr.listSuspect j.hostLine .unplaced j.origin
    (K := tableKeys (notice j.hostLine s)) ⟨hnotice j.hostLine s, rfl⟩))
  simp only [Machine.endUnplaced, hq]
  exact q.promoteAndDrain (q.keep (q.leave hq hnone hno h) (sameJobs_dequeue told.prop hq))

theorem endLost (q : Indifferent Q) (hq : s.queue = j :: rest) (hnone : j.reserved = none) (hno : NoDiscard s)
    (h : JobsAnd Q s) : JobsAnd Q (endLost s) := by
  have tr := SameJobs.tracked s
  have told := tr.countFailed (tr.listDataLost j.hostLine .fetch j.origin (SameJobs.good s))
  simp only [Machine.endLost, hq]
  exact q.promoteAndDrain (q.keep (q.leave hq hnone hno h) (sameJobs_dequeue told.prop hq))

theorem enterPlacing (q : Indifferent Q) (hq : s.queue = j :: rest) (hnone : j.reserved = none) (hno : NoDiscard s)
    (h : JobsAnd Q s) : JobsAnd Q (enterPlacing s) := by
  cases hfree : lowestFree s with
  | none =>
    simp only [Machine.enterPlacing, hq, hfree]
    exact q.endUnplaced _ (fun _ _ => sameJobs_raise) hq hnone hno h
  | some i =>
    have hreserved : JobsAnd Q
        (updateHead (fun j => { j with state := .placing, reserved := some i, attempts := j.attempts + 1 })
          (setSpare i .reserved s)) := by
      simp only [updateHead, setSpare_queue, hq]
      exact ⟨jobsLaw_reserve h.1 hq hnone hno (spareState_of_lowestFree hfree),
        q.jobs (s := s) _ _ (by simp [hq]) h.2⟩
    simp only [Machine.enterPlacing, hq, hfree]
    split
    · exact q.keep hreserved sameJobs_raise
    · exact hreserved

/-- The head job's record appended and answered: it commits and leaves (R109). -/
theorem commitHead (q : Indifferent Q) (generation : BitVec 32) (hno : NoDiscard s) (h : JobsAnd Q s) :
    JobsAnd Q (commitHead generation s) := by
  cases hq : s.queue with
  | nil => simpa only [Machine.commitHead, hq] using h
  | cons j rest =>
    cases hheld : j.reserved with
    | none => simpa only [Machine.commitHead, hq, hheld] using h
    | some spare =>
      have hqueue : (commitMap j spare generation s).queue = j :: rest := by
        unfold commitMap
        split <;> exact hq
      have hQ : Q { commitMap j spare generation s with queue := rest } := by
        have hjobs : ∀ m, Q { s with lineMap := m, queue := rest } := fun m => q.jobs m rest (by simp [hq]) h.2
        unfold commitMap
        split
        · exact hjobs _
        · exact q.same (hjobs _) ⟨rfl, rfl, rfl, rfl, rfl, .inl rfl⟩
      have tr := SameJobs.tracked (commitMap j spare generation s)
      have removed := tr.removeSuspect j.hostLine (SameJobs.good (commitMap j spare generation s))
      have told := tr.completeOriginator j (tr.raise (kind := .retired) (hostLine := some j.hostLine) (spare := some spare)
        (oldSpare := j.kind.oldSpare) (values := [val (originCode j.origin)])
        (tr.count removed (c :=
          { (removeSuspect j.hostLine (commitMap j spare generation s)).counters with
            retirementsCommitted :=
              satInc (removeSuspect j.hostLine (commitMap j spare generation s)).counters.retirementsCommitted })
          (by simp [CountersRise, Counters.inOrder, Noticed.satInc_le])))
      simp only [Machine.commitHead, hq, hheld]
      exact q.promoteAndDrain
        (q.keep ⟨jobsLaw_commit h.1 hq hheld hno, hQ⟩ (sameJobs_dequeue told.prop hqueue))

/-- The examination of a QUEUED head job, and so what the host, the residual operations, the patrol and the grants do. -/
theorem steady (q : Indifferent Q) : Steady (JobsAnd Q) fun _ _ => True where
  toQueued := q.queued
  headFails hq hj h := q.endFailed hq (noDiscard_of_head h.1 hq (.inr (.inl hj))) h
  headFetches {s j rest} hq hj h := by
    have hno := noDiscard_of_head h.1 hq (.inr (.inl hj))
    have hnone := reserved_eq_none_of_head h.1 hq (.inl hj)
    simp only [updateHead, hq]
    exact ⟨jobsLaw_step h.1 hq rfl rfl rfl (fun hr => absurd hnone hr) (.inl hno), q.jobs s.lineMap _ (by simp [hq]) h.2⟩
  headPlaces hq hj h :=
    q.enterPlacing hq (reserved_eq_none_of_head h.1 hq (.inl hj)) (noDiscard_of_head h.1 hq (.inr (.inl hj))) h

theorem runHead (q : Indifferent Q) (h : JobsAnd Q s) : JobsAnd Q (runHead s) := (q.steady.runHead (Kept.good h)).prop

/-- The head job at the answer to its append, the append being pending no more (R107, R109). -/
theorem answerDone (q : Indifferent Q) (r : AppendRecord) (generation : BitVec 32) (hno : NoDiscard s)
    (hdiscard : ∀ spare, r = .discard spare → ∀ j rest, s.queue = j :: rest → j.reserved = none) (h : JobsAnd Q s) :
    JobsAnd Q (answerDone r generation s) := by
  cases r with
  | retire _ _ => exact q.runHead (q.commitHead generation hno h)
  | reretire _ _ _ => exact q.runHead (q.commitHead generation hno h)
  | discard spare =>
    refine q.runHead ?_
    cases hq : s.queue with
    | nil => simpa only [afterDiscard, hq] using h
    | cons j rest =>
      have hnone := hdiscard spare rfl j rest hq
      simp only [afterDiscard, hq]
      split
      · exact q.endUnplaced _ (fun _ _ => sameJobs_raise) hq hnone hno h
      · exact q.enterPlacing hq hnone hno h

/-- A FAILED ending as an answer, of the head job if there is one. -/
theorem failHead (q : Indifferent Q) (hno : NoDiscard s) (h : JobsAnd Q s) :
    JobsAnd Q (Machine.runHead (Machine.endFailed s)) := by
  refine q.runHead ?_
  cases hq : s.queue with
  | nil => simpa only [Machine.endFailed, hq] using h
  | cons j rest => exact q.endFailed hq hno h

end Indifferent

end Sys2Proof.Machine

namespace Sys2Proof.Machine

open Sys2Proof.Safety

variable {g : Nat} {s t : State} {j : Job} {rest : List Job}

/-! #### The journal's work -/

/-- The law of the generation, which stands at `g` or above. -/
abbrev WorkLaw (g : Nat) (s : State) : Prop := GenerationLaw s ∧ g ≤ s.journal.generation.toNat

/-- The journal has no work in progress, in a state that is not UNFORMATTED. -/
abbrev AtRest (g : Nat) (s : State) : Prop :=
  s.journal.work = .none ∧ s.opState ≠ .unformatted ∧ g ≤ s.journal.generation.toNat

/-- The journal neither rebuilds nor formats: its work, if any, is an append or a compaction to the next generation. -/
abbrev InService (s : State) : Prop :=
  s.opState ≠ .unformatted ∧
    (s.journal.work = .none ∨ s.journal.work = .append ∨
      ∃ c, s.journal.work = .compact c ∧ c.generation = s.journal.generation + 1 ∧
        s.journal.generation ≠ BitVec.allOnes 32)

theorem workLaw_of_inService (h : InService s) (hg : g ≤ s.journal.generation.toNat) : WorkLaw g s := by
  obtain ⟨ho, hw⟩ := h
  refine ⟨⟨fun step hs => ?_, fun c hc => ?_, fun step hs => ?_, fun n hn => ?_, fun hu => absurd hu ho⟩, hg⟩
  all_goals
    rcases hw with hw | hw | ⟨c', hw, hgen⟩
    all_goals simp_all

theorem workLaw_of_atRest (h : AtRest g s) : WorkLaw g s := workLaw_of_inService ⟨h.2.1, .inl h.1⟩ h.2.2

/-- Outside REBUILD and UNFORMATTED, and while a job is queued, the journal is in service. -/
theorem inService_of_workLaw (h : WorkLaw g s) (ho : s.opState ≠ .rebuild ∧ s.opState ≠ .unformatted ∨ s.queue ≠ []) :
    InService s := by
  obtain ⟨⟨hreplay, hcompact, _, hformat, hunformatted⟩, _⟩ := h
  have hnot : s.opState ≠ .unformatted := fun hu => ho.elim (fun ho => ho.2 hu) fun hq => hq (hunformatted hu).1
  refine ⟨hnot, ?_⟩
  cases hw : s.journal.work with
  | none => exact .inl rfl
  | append => exact .inr (.inl rfl)
  | compact c => exact .inr (.inr ⟨c, rfl, hcompact c hw⟩)
  | rebuild step =>
    obtain ⟨hr, hq, _⟩ := hreplay step hw
    exact (ho.elim (fun ho => ho.1 hr) fun hne => hne hq).elim
  | formatting n => exact absurd (hformat n hw) hnot

theorem indifferent_workLaw : Indifferent (WorkLaw g) where
  same {s t} h hst := by
    rcases hst.opState with ho | ⟨hquiescing, hquiet⟩
    · simpa only [WorkLaw, GenerationLaw, ReplayLaw, spareState, hst.lineMap, hst.queue, hst.generation, hst.work, ho]
        using h
    · have hserved := inService_of_workLaw h (.inl (by simp [hquiescing]))
      refine workLaw_of_inService ⟨by simp [hquiet], ?_⟩ (hst.generation ▸ h.2)
      rw [hst.work, hst.generation]
      exact hserved.2
  enqueues {s} _ ho h := by
    have served : InService s := inService_of_workLaw h (.inl (by simp [ho]))
    exact workLaw_of_inService served h.2
  jobs {s} _ _ hq h := by
    have served : InService s := inService_of_workLaw h (.inr hq)
    exact workLaw_of_inService served h.2

theorem indifferent_atRest : Indifferent (AtRest g) where
  same {s t} h hst := by
    obtain ⟨hw, ho, hg⟩ := h
    refine ⟨hst.work.trans hw, ?_, hst.generation ▸ hg⟩
    rcases hst.opState with hsame | ⟨_, hquiet⟩
    · rwa [hsame]
    · simp [hquiet]
  enqueues _ _ h := h
  jobs _ _ _ h := h

theorem sameJobs_presentNext : SameJobs s (presentNext s) := by
  obtain ⟨p, hp⟩ := presentNext_eq s
  rw [hp]
  exact ⟨rfl, rfl, rfl, rfl, rfl, .inl rfl⟩

theorem sameJobs_endPending (results : List Byte) : SameJobs s (endPending results s) := by
  unfold endPending
  split <;> exact ⟨rfl, rfl, rfl, rfl, rfl, .inl rfl⟩

/-- What the journal's own work keeps. -/
abbrev Laws (g : Nat) : State → Prop := JobsAnd (WorkLaw g)

theorem laws_same (h : Laws g s) (hst : SameJobs s t) : Laws g t := indifferent_workLaw.keep h hst

theorem laws_drainCheck (h : Laws g s) : Laws g (drainCheck s) := (indifferent_workLaw.tracked.drainCheck (Kept.good h)).prop

/-- The rebuild or a compaction in it ends in service: REBUILD_DONE, and READY or QUIESCING (R149). -/
theorem laws_finishRebuild (hjobs : JobsLaw s) (hw : s.journal.work = .none) (hg : g ≤ s.journal.generation.toNat) :
    Laws g (finishRebuild s) := by
  have told : SameJobs s (raiseRebuildDone 1 s) := sameJobs_raise
  have served : ∀ o, o ≠ .unformatted → Laws g { raiseRebuildDone 1 s with opState := o } := fun o ho =>
    ⟨told.jobsLaw hjobs,
      workLaw_of_inService ⟨ho, .inl (told.work.trans hw)⟩ (show g ≤ _ by rw [told.generation]; exact hg)⟩
  unfold finishRebuild enterService
  split
  · exact laws_drainCheck (served _ nofun)
  · exact served _ nofun

theorem laws_halt (cause : HaltCause) (hjobs : JobsLaw s) (hg : g ≤ s.journal.generation.toNat) :
    Laws g (halt cause s) := by
  have halted : Laws g { s with opState := .halted, haltCause := cause, journal := { s.journal with work := .none } } :=
    ⟨hjobs, workLaw_of_inService ⟨nofun, .inl rfl⟩ hg⟩
  exact laws_same halted sameJobs_raise

/-- A compaction fails (R134). -/
theorem laws_failCompaction (cause : FailCause) (hjobs : JobsLaw s) (ho : s.opState ≠ .unformatted)
    (hg : g ≤ s.journal.generation.toNat) : Laws g (failCompaction cause s) := by
  have rest := indifferent_atRest (g := g)
  have failed : JobsAnd (AtRest g) { s with journal := { s.journal with state := .failed, work := .none } } :=
    ⟨hjobs, rfl, ho, hg⟩
  have told := rest.keep failed (sameJobs_raise (kind := .journalFailed) (hostLine := none) (spare := none)
    (oldSpare := none)
    (values := [val (failCauseCode cause), match s.journal.uncertain with | some k => val k | none => BitVec.allOnes 32]))
  have answered : JobsAnd (AtRest g) (answerFailed
      (raiseJournalFailed cause s.journal.uncertain
        { s with journal := { s.journal with state := .failed, work := .none } })) := by
    unfold answerFailed
    split
    · have hno : ∀ u : State, NoDiscard { u with journal := { u.journal with pending := none } } := fun _ _ => nofun
      obtain ⟨⟨hmap, hreserved, hkind, _⟩, hrest⟩ := told
      exact rest.failHead (hno _) ⟨⟨hmap, hreserved, hkind, discardLaw_of_noDiscard (hno _)⟩, hrest⟩
    · exact told
  obtain ⟨hjobs', hw', ho', hg'⟩ := answered
  unfold failCompaction
  dsimp only
  split_ifs
  · exact laws_halt _ hjobs' hg'
  · exact laws_finishRebuild hjobs' hw' hg'
  · exact laws_drainCheck ⟨hjobs', workLaw_of_atRest ⟨hw', ho', hg'⟩⟩

/-- A compaction starts, to the next generation or from the last to its failure (R130). -/
theorem laws_startCompaction (carries : Bool) (hjobs : JobsLaw s) (ho : s.opState ≠ .unformatted)
    (hg : g ≤ s.journal.generation.toNat) : Laws g (startCompaction carries s) := by
  unfold startCompaction
  split
  · exact laws_failCompaction _ (s := { s with journal := { s.journal with state := .compacting } }) hjobs ho hg
  · next hlast => exact ⟨hjobs, workLaw_of_inService ⟨ho, .inr (.inr ⟨_, rfl, rfl, hlast⟩)⟩ hg⟩

/-- The journal passes to IDLE (R126). -/
theorem laws_journalIdle (hjobs : JobsLaw s) (ho : s.opState ≠ .unformatted) (hg : g ≤ s.journal.generation.toNat) :
    Laws g (journalIdle s) :=
  laws_drainCheck (s := { s with journal := { s.journal with state := .idle, work := .none } })
    ⟨hjobs, workLaw_of_inService ⟨ho, .inl rfl⟩ hg⟩

/-- The pending append is taken out to be answered: a DISCARD names a head job without a spare (R107). -/
theorem jobsLaw_clearPending (h : JobsLaw s) : JobsLaw { s with journal := { s.journal with pending := none } } := by
  obtain ⟨hmap, hreserved, hkind, _⟩ := h
  exact ⟨hmap, hreserved, hkind, fun _ => nofun⟩

theorem reserved_eq_none_of_pending_discard {spare : Spare} (h : JobsLaw s)
    (hp : s.journal.pending = some (.discard spare)) (hq : s.queue = j :: rest) : j.reserved = none := by
  obtain ⟨_, _, _, hdiscard⟩ := h
  obtain ⟨j', hhead, hnone, _⟩ := hdiscard spare hp
  rw [hq] at hhead
  obtain rfl : j = j' := by simpa using hhead
  exact hnone

/-- The append write ends (R128, R129). -/
theorem laws_appendDone (hw : s.journal.work = .append) (h : Laws g s) : Laws g (appendDone s) := by
  obtain ⟨hjobs, ⟨_, _, _, _, hunformatted⟩, hg⟩ := id h
  have ho : s.opState ≠ .unformatted := fun hu => by simpa [hw] using (hunformatted hu).2.2
  unfold appendDone
  split
  · exact h
  · next r hp =>
    have answered := (indifferent_atRest (g := g)).answerDone r s.journal.generation
      (s := { s with journal := { s.journal with tail := s.journal.tail + 1, pending := none, work := .none } })
      (fun _ => nofun)
      (fun spare hr j rest hq => reserved_eq_none_of_pending_discard hjobs (hr ▸ hp) hq)
      ⟨jobsLaw_clearPending hjobs, rfl, ho, hg⟩
    obtain ⟨hjobs', _, ho', hg'⟩ := answered
    dsimp only
    split
    · exact laws_startCompaction _ hjobs' ho' hg'
    · exact laws_journalIdle hjobs' ho' hg'

theorem laws_appendFailed (hw : s.journal.work = .append) (h : Laws g s) : Laws g (appendFailed s) := by
  obtain ⟨hjobs, ⟨_, _, _, _, hunformatted⟩, hg⟩ := h
  have ho : s.opState ≠ .unformatted := fun hu => by simpa [hw] using (hunformatted hu).2.2
  exact laws_startCompaction _ (s := { s with journal := { s.journal with uncertain := some s.journal.tail } }) hjobs ho hg

/-- A write of a compaction ends DONE (R132, R133). -/
theorem laws_compactionAdvance {c : Compaction} (hw : s.journal.work = .compact c) (h : Laws g s) :
    Laws g (compactionAdvance c s) := by
  obtain ⟨hjobs, ⟨_, hcompact, _, _, hunformatted⟩, hg⟩ := h
  have ho : s.opState ≠ .unformatted := fun hu => by simpa [hw] using (hunformatted hu).2.2
  obtain ⟨hgen, hlast⟩ := hcompact c hw
  have hg' : g ≤ c.generation.toNat := by
    have hne : s.journal.generation.toNat ≠ 4294967295 := fun e => hlast (BitVec.eq_of_toNat_eq (by simpa using e))
    have hlt := s.journal.generation.isLt
    rw [hgen, BitVec.toNat_add]
    simp
    omega
  unfold compactionAdvance
  split
  · exact ⟨hjobs, workLaw_of_inService ⟨ho, .inr (.inr ⟨_, rfl, hgen, hlast⟩)⟩ hg⟩
  · have rest := indifferent_atRest (g := g)
    have told := rest.keep (s :=
        { s with
          journal := completedJournal s c
          counters := { s.counters with journalCompactions := satInc s.counters.journalCompactions } })
      ⟨hjobs, rfl, ho, hg'⟩
      (sameJobs_raise (kind := .journalCompacted) (hostLine := none) (spare := none) (oldSpare := none)
        (values := [c.generation, val c.records]))
    have answered : JobsAnd (AtRest g) (answerCarried c (raiseJournalCompacted c.generation c.records
        { s with
          journal := completedJournal s c
          counters := { s.counters with journalCompactions := satInc s.counters.journalCompactions } })) := by
      unfold answerCarried
      split
      · next r _ hp =>
        obtain ⟨hjobs', hrest'⟩ := told
        exact rest.answerDone r c.generation (fun _ => nofun)
          (fun spare hr j rest hq => reserved_eq_none_of_pending_discard hjobs' (hr ▸ hp) hq)
          ⟨jobsLaw_clearPending hjobs', hrest'⟩
      · exact told
    obtain ⟨hjobs', hw', ho', hg''⟩ := answered
    unfold compactionDone afterCompaction
    dsimp only
    split
    · exact ⟨hjobs', workLaw_of_inService ⟨ho', .inr (.inl rfl)⟩ hg''⟩
    · split
      · exact laws_finishRebuild hjobs' rfl hg''
      · exact laws_journalIdle hjobs' ho' hg''

end Sys2Proof.Machine

namespace Sys2Proof.Machine

open Sys2Proof.Safety

variable {g : Nat} {s t : State} {j : Job} {rest : List Job}

/-! #### The rebuild and INITIALIZE_JOURNAL -/

/-- With no job queued and no spare reserved, the law of the map gives the laws of the jobs. -/
theorem jobsLaw_of_unqueued (hmap : MapLaw s) (hq : s.queue = []) (hres : ∀ i, spareState s i ≠ .reserved)
    (hno : NoDiscard s) : JobsLaw s := by
  refine ⟨hmap, ⟨fun i => ?_, ?_, ?_⟩, ⟨?_, ?_⟩, discardLaw_of_noDiscard hno⟩
  · simp [hq, hres i]
  all_goals simp [hq]

theorem not_reserved_of_unqueued (h : JobsLaw s) (hq : s.queue = []) (i : Spare) : spareState s i ≠ .reserved := by
  obtain ⟨_, ⟨hreserved, _, _⟩, _, _⟩ := h
  intro hr
  simpa [hq] using (hreserved i).mp hr

/-- The rebuild goes on with its next read. -/
theorem workLaw_of_rebuild {step : RebuildStep} (hw : s.journal.work = .rebuild step) (ho : s.opState = .rebuild)
    (hq : s.queue = []) (hempty : step ≠ .record → s.lineMap.entries = [] ∧ ∀ i : Spare, spareState s i = .free)
    (hgen : (step = .headerA ∨ ∃ a, step = .headerB a) → s.journal.generation = 0)
    (hg : g ≤ s.journal.generation.toNat) : WorkLaw g s := by
  refine ⟨⟨?_, ?_, ?_, ?_, ?_⟩, hg⟩
  · intro step' hw'
    obtain rfl : step = step' := by simpa [hw] using hw'
    exact ⟨ho, hq, hempty⟩
  · intro c hc
    simp [hw] at hc
  · intro step' hw'
    obtain rfl : step = step' := by simpa [hw] using hw'
    exact hgen
  · intro n hn
    simp [hw] at hn
  · intro hu
    simp [ho] at hu

/-- In UNFORMATTED INITIALIZE_JOURNAL alone works. -/
theorem workLaw_of_unformatted (ho : s.opState = .unformatted) (hq : s.queue = []) (hzero : s.journal.generation = 0)
    (hw : s.journal.work = .none ∨ ∃ n, s.journal.work = .formatting n) : WorkLaw 0 s := by
  refine ⟨⟨fun step hs => ?_, fun c hc => ?_, fun step hs => ?_, fun _ _ => ho, fun _ => ⟨hq, hzero, hw⟩⟩, Nat.zero_le _⟩
  all_goals
    rcases hw with hw | ⟨n, hw⟩
    all_goals simp_all

theorem eq_zero_of_le_generation (hg : g ≤ s.journal.generation.toNat) (hzero : s.journal.generation = 0) : g = 0 := by
  simpa [hzero] using hg

theorem laws_selectHeader (a b : Option (BitVec 32)) (hw : s.journal.work = .rebuild (.headerB a)) (h : Laws g s) :
    Laws g (selectHeader a b s) := by
  obtain ⟨hjobs, ⟨hreplay, _, hheader, _, _⟩, hg⟩ := h
  obtain ⟨ho, hq, hempty⟩ := hreplay _ hw
  have hzero := hheader _ hw (.inr ⟨a, rfl⟩)
  obtain rfl := eq_zero_of_le_generation hg hzero
  unfold selectHeader
  split
  · exact ⟨hjobs, workLaw_of_rebuild rfl ho hq (fun _ => hempty (by simp)) (by simp) (Nat.zero_le _)⟩
  · have unformatted : Laws 0 { s with opState := .unformatted, journal := { s.journal with work := .none } } :=
      ⟨hjobs, workLaw_of_unformatted rfl hq hzero (.inl rfl)⟩
    exact laws_same unformatted sameJobs_raise

theorem spareState_applyBitmap (flags : BitVec 1024) (i : Spare) :
    spareState (applyBitmap flags s) i = if flags.getLsbD i.val then .discarded else spareState s i := by
  simp only [spareState, applyBitmap, Vector.getElem_mk, List.getElem_toArray, List.getElem_map, List.getElem_finRange]
  rfl

theorem applyBitmap_entries (flags : BitVec 1024) : (applyBitmap flags s).lineMap.entries = s.lineMap.entries := by
  simp only [applyBitmap]

/-- The bitmap changes the map and the journal alone. -/
theorem applyBitmap_eq (flags : BitVec 1024) (s : State) :
    ∃ m, applyBitmap flags s =
      { s with lineMap := m, journal := { s.journal with bitmap := flags, work := .rebuild .record } } := by
  simp only [applyBitmap]
  exact ⟨_, rfl⟩

theorem laws_applyBitmap {low : BitVec 512} (flags : BitVec 1024) (hw : s.journal.work = .rebuild (.bitmapHigh low))
    (h : Laws g s) : Laws g (applyBitmap flags s) := by
  obtain ⟨hjobs, ⟨hreplay, _, _, _, _⟩, hg⟩ := h
  obtain ⟨ho, hq, hempty⟩ := hreplay _ hw
  obtain ⟨hentries, hfree⟩ := hempty (by simp)
  have hentries' : (applyBitmap flags s).lineMap.entries = [] := (applyBitmap_entries flags).trans hentries
  have hspare : ∀ i, spareState (applyBitmap flags s) i = .discarded ∨ spareState (applyBitmap flags s) i = .free := by
    intro i
    rw [spareState_applyBitmap, hfree i]
    split <;> simp
  have hmap : MapLaw (applyBitmap flags s) := by
    refine ⟨by simp [hentries'], by simp [hentries'], fun i => ?_⟩
    rcases hspare i with hi | hi <;> simp [hi, hentries']
  have hnone : ∀ i, spareState (applyBitmap flags s) i ≠ .reserved := by
    intro i
    rcases hspare i with hi | hi <;> simp [hi]
  obtain ⟨m, hm⟩ := applyBitmap_eq flags s
  rw [hm] at hmap hnone ⊢
  exact ⟨jobsLaw_of_unqueued hmap hq hnone (noDiscard_of_empty (s := s) hjobs hq),
    workLaw_of_rebuild rfl ho hq (fun hne => absurd rfl hne) (by simp) hg⟩

theorem spareState_applyRecord_ne_reserved {r : AppendRecord} (generation : BitVec 32)
    (hnone : ∀ i, spareState s i ≠ .reserved) (i : Spare) : spareState (applyRecord generation r s) i ≠ .reserved := by
  cases r
  all_goals
    simp only [applyRecord, spareState_setSpare, spareState_putEntry]
    split_ifs
    all_goals simp [hnone i]

/-- A replayed record changes the map and the pool alone. -/
theorem applyRecord_eq (generation : BitVec 32) (r : AppendRecord) (s : State) :
    ∃ m, applyRecord generation r s = { s with lineMap := m } := by
  cases r <;> exact ⟨_, rfl⟩

/-- The record of the verdict `apply` meets the condition of its kind (R124). -/
theorem recordFits_of_judgeRecord {o : DecodeOutcome} {r : RawRecord} {a : AppendRecord}
    (h : judgeRecord s o r = .apply a) : recordFits s a = true := by
  unfold judgeRecord at h
  split_ifs at h
  split at h
  · split_ifs at h with hfits
    obtain rfl := Verdict.apply.inj h
    exact hfits
  · cases h

/-- Replay ends (R148). -/
theorem laws_endReplay (torn : Bool) (hjobs : JobsLaw s) (ho : s.opState = .rebuild)
    (hg : g ≤ s.journal.generation.toNat) : Laws g (endReplay torn s) := by
  have hne : s.opState ≠ .unformatted := by simp [ho]
  unfold endReplay
  split_ifs
  · have told : SameJobs s (raiseJournalRepaired s.journal.tail s) := sameJobs_raise
    exact laws_startCompaction _ (told.jobsLaw hjobs)
      (by rcases told.opState with h | ⟨h, -⟩ <;> simp_all) (told.generation ▸ hg)
  · exact laws_startCompaction _ hjobs hne hg
  · exact laws_finishRebuild (s := { s with journal := { s.journal with state := .idle, work := .none } }) hjobs rfl hg

theorem laws_replayRecord (o : DecodeOutcome) (d : LineData) (hw : s.journal.work = .rebuild .record) (h : Laws g s) :
    Laws g (replayRecord o d s) := by
  obtain ⟨hjobs, ⟨hreplay, _, _, _, _⟩, hg⟩ := h
  obtain ⟨ho, hq, _⟩ := hreplay _ hw
  unfold replayRecord
  dsimp only
  split
  · exact laws_endReplay _ hjobs ho hg
  · exact laws_endReplay _ hjobs ho hg
  · next a hverdict =>
    have hmap := mapLaw_applyRecord (recordOf d).generation hjobs.1 (recordFits_of_judgeRecord hverdict)
    have hnone := spareState_applyRecord_ne_reserved (r := a) (recordOf d).generation (not_reserved_of_unqueued hjobs hq)
    obtain ⟨m, hm⟩ := applyRecord_eq (recordOf d).generation a s
    rw [hm] at hmap hnone ⊢
    have hjobs' : JobsLaw { s with lineMap := m } :=
      jobsLaw_of_unqueued hmap hq hnone (noDiscard_of_empty (s := s) hjobs hq)
    split
    · exact ⟨hjobs', workLaw_of_rebuild hw ho hq (fun hne => absurd rfl hne) (by simp) hg⟩
    · exact laws_endReplay _ hjobs' ho hg

theorem laws_rebuildRead (step : RebuildStep) (o : DecodeOutcome) (d : LineData)
    (hw : s.journal.work = .rebuild step) (h : Laws g s) : Laws g (rebuildRead step o d s) := by
  obtain ⟨hjobs, ⟨hreplay, _, hheader, _, _⟩, hg⟩ := id h
  obtain ⟨ho, hq, hempty⟩ := hreplay _ hw
  cases step with
  | headerA => exact ⟨hjobs, workLaw_of_rebuild rfl ho hq (fun _ => hempty (by simp)) (fun _ => hheader _ hw (.inl rfl)) hg⟩
  | headerB a => exact laws_selectHeader a _ hw h
  | bitmapLow =>
    simp only [rebuildRead]
    split
    · exact laws_halt _ hjobs hg
    · exact ⟨hjobs, workLaw_of_rebuild rfl ho hq (fun _ => hempty (by simp)) (by simp) hg⟩
  | bitmapHigh low =>
    simp only [rebuildRead]
    split
    · exact laws_halt _ hjobs hg
    · exact laws_applyBitmap _ hw h
  | record => exact laws_replayRecord o d hw h

/-- A write of INITIALIZE_JOURNAL ends DONE (R151): the generation rises from 0 to 1 at the last. -/
theorem laws_initializeAdvance (n : Nat) (hw : s.journal.work = .formatting n) (h : Laws g s) :
    Laws g (initializeAdvance n s) := by
  obtain ⟨hjobs, ⟨_, _, _, hformat, hunformatted⟩, hg⟩ := h
  have ho := hformat n hw
  obtain ⟨hq, hzero, _⟩ := hunformatted ho
  obtain rfl := eq_zero_of_le_generation hg hzero
  unfold initializeAdvance
  split
  · exact ⟨hjobs, workLaw_of_unformatted ho hq hzero (.inr ⟨_, rfl⟩)⟩
  · have told := sameJobs_endPending (n8 1)
      (s :=
        { s with
          journal :=
            { s.journal with
              state := .idle, active := some .a, generation := 1, tail := 0, bitmap := 0, uncertain := none,
              work := .none } })
    exact laws_finishRebuild (told.jobsLaw hjobs) told.work (Nat.zero_le _)

theorem laws_workResult (r : MediaResult) (h : Laws g s) : Laws g (workResult r s) := by
  obtain ⟨hjobs, ⟨hreplay, _, _, hformat, hunformatted⟩, hg⟩ := id h
  unfold workResult
  split
  case h_1 => exact h
  case h_2 step o d hw => exact laws_rebuildRead step o d hw h
  case h_3 => exact laws_halt _ hjobs hg
  case h_4 => exact h
  case h_5 hw => exact laws_appendDone hw h
  case h_6 hw => exact laws_appendFailed hw h
  case h_7 hw => exact laws_appendFailed hw h
  case h_8 => exact h
  case h_9 hw => exact laws_compactionAdvance hw h
  case h_10 hw => exact laws_failCompaction _ hjobs (fun hu => by simpa [hw] using (hunformatted hu).2.2) hg
  case h_11 hw => exact laws_failCompaction _ hjobs (fun hu => by simpa [hw] using (hunformatted hu).2.2) hg
  case h_12 => exact h
  case h_13 hw => exact laws_initializeAdvance _ hw h
  case h_14 =>
    have told := sameJobs_endPending (s := s) (n8 3)
    exact laws_halt _ (told.jobsLaw hjobs) (told.generation ▸ hg)
  case h_15 =>
    have told := sameJobs_endPending (s := s) (n8 3)
    exact laws_halt _ (told.jobsLaw hjobs) (told.generation ▸ hg)
  case h_16 => exact h

theorem laws_journalResult (r : MediaResult) (h : Laws g s) : Laws g (journalResult r s) := by
  have ended : Laws g { s with journal := { s.journal with presented := none } } :=
    laws_same h ⟨rfl, rfl, rfl, rfl, rfl, .inl rfl⟩
  unfold journalResult
  dsimp only
  split
  · exact laws_same (laws_workResult r ended) sameJobs_presentNext
  · have read : Laws g { s with journal := { s.journal with service := none, presented := none } } :=
      laws_same h ⟨rfl, rfl, rfl, rfl, rfl, .inl rfl⟩
    exact laws_same (laws_same read (sameJobs_endPending (slotResults r))) sameJobs_presentNext
  · exact h

/-! #### The head job's own results -/

theorem laws_requestAppend (r : AppendRecord) (hq : s.queue = j :: rest) (hno : NoDiscard s)
    (hdiscard : ∀ spare, r = .discard spare → j.reserved = none ∧ j.state ≠ .queued ∧ j.state ≠ .fetching)
    (h : Laws g s) : Laws g (requestAppend r s) := by
  obtain ⟨⟨hmap, hreserved, hkind, _⟩, hwork⟩ := id h
  have hserved : InService s := inService_of_workLaw hwork (.inr (by simp [hq]))
  have asked : ∀ journal : Journal, journal.pending = some r → JobsLaw { s with journal := journal } := fun journal hp => by
    refine ⟨hmap, hreserved, hkind, fun spare hs => ⟨j, by simp [hq], hdiscard spare ?_⟩⟩
    exact Option.some_inj.mp (hp.symm.trans hs)
  unfold requestAppend
  split
  · have appending : Laws g
        { s with journal := { s.journal with state := .appending, pending := some r, work := .append } } :=
      ⟨asked _ rfl, workLaw_of_inService ⟨hserved.1, .inr (.inl rfl)⟩ hwork.2⟩
    exact laws_same appending sameJobs_presentNext
  · exact ⟨asked _ rfl, workLaw_of_inService hserved hwork.2⟩
  · exact indifferent_workLaw.failHead hno h
  · exact h

/-- A discard gives up the head job's spare and asks for its append (R107). -/
theorem discardSpare_of_reserved {spare : Spare} (hq : s.queue = j :: rest) (hheld : j.reserved = some spare) :
    discardSpare s =
      requestAppend (.discard spare)
        { countDiscarded (setSpare spare .discarded s) with
          queue := { j with state := .placing, reserved := none } :: rest } := by
  obtain ⟨_, _, _, _, _, _, _, _, _⟩ := j
  obtain rfl := hheld
  simp [discardSpare, hq, updateHead, countDiscarded]

theorem discardSpare_of_none (hq : s.queue = j :: rest) (hnone : j.reserved = none) : discardSpare s = s := by
  obtain ⟨_, _, _, _, _, _, _, _, _⟩ := j
  obtain rfl := hnone
  simp [discardSpare, hq]

theorem laws_discardSpare (hq : s.queue = j :: rest) (h : Laws g s) : Laws g (discardSpare s) := by
  cases hheld : j.reserved with
  | none => rwa [discardSpare_of_none hq hheld]
  | some spare =>
    rw [discardSpare_of_reserved hq hheld]
    have hno := noDiscard_of_head h.1 hq (.inl (by simp [hheld]))
    exact laws_requestAppend (.discard spare) rfl hno (fun _ _ => ⟨rfl, nofun, nofun⟩)
      ⟨jobsLaw_discard h.1 hq hheld, indifferent_workLaw.jobs (s := s) _ _ (by simp [hq]) h.2⟩

theorem laws_enterRecording (h : Laws g s) : Laws g (enterRecording s) := by
  unfold enterRecording
  split
  · next j rest hq =>
    split
    · next spare hheld =>
      have hno := noDiscard_of_head h.1 hq (.inl (by simp [hheld]))
      simp only [updateHead, hq]
      refine laws_requestAppend _ rfl hno (fun spare' hr => ?_)
        ⟨jobsLaw_step h.1 hq rfl rfl rfl (fun _ => .inr (.inr rfl)) (.inl hno),
          indifferent_workLaw.jobs s.lineMap _ (by simp [hq]) h.2⟩
      unfold retirementRecord at hr
      split at hr <;> cases hr
    · exact h
  · exact h

theorem laws_fetchResult (r : MediaResult) (hq : s.queue = j :: rest) (hj : j.state = .fetching) (h : Laws g s) :
    Laws g (fetchResult r s) := by
  have q := indifferent_workLaw (g := g)
  have hnone := reserved_eq_none_of_head h.1 hq (.inr hj)
  have hno := noDiscard_of_head h.1 hq (.inr (.inr hj))
  unfold fetchResult
  split
  · split
    · exact q.runHead (q.endLost hq hnone hno h)
    · simp only [updateHead, hq]
      exact q.runHead (q.enterPlacing (s := { s with queue := _ }) rfl hnone hno
        ⟨jobsLaw_step h.1 hq rfl rfl rfl (fun hr => absurd hnone hr) (.inl hno), q.jobs s.lineMap _ (by simp [hq]) h.2⟩)
  · exact q.runHead (q.endUnplaced _ (fun _ t => .refl t) hq hnone hno h)
  · exact h

theorem laws_placementResult (r : MediaResult) (hq : s.queue = j :: rest) (h : Laws g s) :
    Laws g (placementResult r s) := by
  cases r with
  | done =>
    simp only [placementResult, updateHead, hq]
    refine ⟨jobsLaw_step h.1 hq rfl rfl rfl (fun _ => .inr (.inl rfl)) ?_,
      indifferent_workLaw.jobs s.lineMap _ (by simp [hq]) h.2⟩
    by_cases hnone : j.reserved = none
    · exact .inr ⟨hnone, nofun, nofun⟩
    · exact .inl (noDiscard_of_head h.1 hq (.inl hnone))
  | exhausted => exact laws_discardSpare hq h
  | timeout => exact laws_discardSpare hq h
  | read _ _ => exact h

theorem laws_checkResult (r : MediaResult) (hq : s.queue = j :: rest) (h : Laws g s) : Laws g (checkResult r s) := by
  unfold checkResult
  split
  · split
    · exact laws_enterRecording h
    · exact laws_discardSpare hq h
  · exact laws_discardSpare hq h
  · exact h

theorem laws_retirementResult (r : MediaResult) (h : Laws g s) : Laws g (retirementResult r s) := by
  unfold retirementResult
  split
  · exact h
  · next j rest hq =>
    split
    · next hj => exact laws_fetchResult r hq hj h
    · exact laws_placementResult r hq h
    · exact laws_checkResult r hq h
    · exact h

theorem laws_deliver (owner : Owner) (id : SlotId) (r : MediaResult) (h : Laws g s) : Laws g (deliver owner id r s) := by
  have k := (indifferent_workLaw (g := g)).steady
  cases owner with
  | journal => exact laws_journalResult r h
  | retirement => exact laws_retirementResult r h
  | patrol => exact (k.patrolResult r (Kept.good h)).prop
  | host tag => exact (k.hostResult tag r (Kept.good h)).prop
  | residual => exact (k.residualResult (fun _ h => laws_same h ⟨rfl, rfl, rfl, rfl, rfl, .inl rfl⟩) id r (Kept.good h)).prop

/-! #### Every step -/

theorem arrivals_laws : Arrivals (Laws g) where
  linkReset {s} h := by
    have emptied : JobsLaw { s with queue := s.queue.map fun j => { j with originator := none } } :=
      jobsLaw_map (fun _ => rfl) (fun _ => rfl) (fun _ => rfl) (fun _ => rfl) h.1
    refine laws_same (s := { s with queue := s.queue.map fun j => { j with originator := none } }) ⟨emptied, ?_⟩
      ⟨rfl, rfl, rfl, rfl, rfl, .inl rfl⟩
    by_cases hq : s.queue = []
    · exact indifferent_workLaw.same h.2 ⟨rfl, by simp [hq], rfl, rfl, rfl, .inl rfl⟩
    · exact indifferent_workLaw.jobs s.lineMap _ hq h.2
  pins _ h := laws_same h ⟨rfl, rfl, rfl, rfl, rfl, .inl rfl⟩
  pendingTo _ h := laws_same h ⟨rfl, rfl, rfl, rfl, rfl, .inl rfl⟩
  lineReleased h := laws_same h ⟨rfl, rfl, rfl, rfl, rfl, .inl rfl⟩
  admitted _ _ _ _ _ h := laws_same h ⟨rfl, rfl, rfl, rfl, rfl, .inl rfl⟩
  entryLeaves _ h := laws_same h ⟨rfl, rfl, rfl, rfl, rfl, .inl rfl⟩
  settings _ _ _ _ h := laws_same h ⟨rfl, rfl, rfl, rfl, rfl, .inl rfl⟩
  noticeTaken _ h := laws_same h ⟨rfl, rfl, rfl, rfl, rfl, .inl rfl⟩
  acknowledged {s} h := by
    obtain ⟨n, hn⟩ := ackAlert_eq s
    rw [hn]
    exact laws_same h ⟨rfl, rfl, rfl, rfl, rfl, .inl rfl⟩
  ticks _ _ _ h := laws_same h ⟨rfl, rfl, rfl, rfl, rfl, .inl rfl⟩

theorem kept_laws : Kept (Laws g) fun _ _ => True where
  toSteady := indifferent_workLaw.steady
  toArrivals := arrivals_laws
  port _ h := laws_same h ⟨rfl, rfl, rfl, rfl, rfl, .inl rfl⟩
  delivered owner id r h := laws_deliver owner id r h
  quiesces {s} ho h := by
    have served : InService s := inService_of_workLaw h.2 (.inl (by simp [ho]))
    exact ⟨h.1, workLaw_of_inService ⟨nofun, served.2⟩ h.2.2⟩
  resumes {s} ho h := by
    have served : InService s := inService_of_workLaw h.2 (.inl (by constructor <;> intro hs <;> simp [hs, OpState.serving] at ho))
    exact ⟨h.1, workLaw_of_inService ⟨nofun, served.2⟩ h.2.2⟩
  formats {s} ho h := by
    obtain ⟨hjobs, ⟨_, _, _, _, hunformatted⟩, hg⟩ := h
    obtain ⟨hq, hzero, _⟩ := hunformatted ho
    obtain rfl := eq_zero_of_le_generation hg hzero
    have formatting : Laws 0 { s with journal := { s.journal with work := .formatting 0 } } :=
      ⟨hjobs, workLaw_of_unformatted ho hq hzero (.inr ⟨_, rfl⟩)⟩
    exact laws_same formatting sameJobs_presentNext
  slotAsked {s} half slot h :=
    laws_same (laws_same (t := { s with journal := { s.journal with service := some (half, slot) } }) h
      ⟨rfl, rfl, rfl, rfl, rfl, .inl rfl⟩) sameJobs_presentNext

/-- The laws hold where a reset has begun the rebuild (R142, R144). -/
theorem laws_beginRebuild (hm : s.lineMap = .empty) (hq : s.queue = []) (hj : s.journal = .empty)
    (ho : s.opState = .rebuild) : Laws 0 (beginRebuild s) := by
  have hfree : ∀ i, spareState s i = .free := fun i => by simp [spareState, hm, LineMap.empty]
  have hentries : s.lineMap.entries = [] := by simp [hm, LineMap.empty]
  have hmap : MapLaw s := ⟨by simp [hentries], by simp [hentries], fun i => by simp [hfree i, hentries]⟩
  have begun : Laws 0 { s with journal := { s.journal with work := .rebuild .headerA } } :=
    ⟨jobsLaw_of_unqueued (s := s) hmap hq (fun i => by simp [hfree i]) (fun _ => by simp [hj, Journal.empty]),
      workLaw_of_rebuild rfl ho hq (fun _ => ⟨hentries, hfree⟩) (fun _ => by simp [hj, Journal.empty]) (Nat.zero_le _)⟩
  exact laws_same begun sameJobs_presentNext

/-- Settles O59: the laws are kept with the generation at 0 or above; with it at its value before the step or above, by every
step but the resets. -/
theorem mapPoolAndGenerationLawsAreKept : Obligations.MapPoolAndGenerationLawsAreKept := by
  rintro s t ht ⟨hmap, hreserved, hkind, hdiscard, _⟩ hgeneration
  have hjobs : JobsLaw s := ⟨hmap, hreserved, hkind, hdiscard⟩
  have kept : Laws 0 t :=
    kept_laws.step (fun _ _ _ => laws_beginRebuild rfl rfl rfl rfl) (fun _ _ => laws_beginRebuild rfl rfl rfl rfl)
      (fun _ h => laws_same h ⟨rfl, rfl, rfl, rfl, rfl, .inl rfl⟩) ⟨hjobs, hgeneration, Nat.zero_le _⟩ ht
  obtain ⟨⟨hmap', hreserved', hkind', hdiscard'⟩, hgeneration', _⟩ := kept
  refine ⟨⟨hmap', hreserved', hkind', hdiscard', hgeneration'.1⟩, hgeneration', fun hno => ?_⟩
  have hrefl : Laws s.journal.generation.toNat s := ⟨hjobs, hgeneration, Nat.le_refl _⟩
  have risen : Laws s.journal.generation.toNat t := by
    refine kept_laws.step_of_exec (fun c rest hp hc => ?_) hrefl ht
    obtain ⟨hrestart, hup⟩ := hno c rest hp
    have front : Laws s.journal.generation.toNat { s with pending := rest } :=
      laws_same hrefl ⟨rfl, rfl, rfl, rfl, rfl, .inl rfl⟩
    exact kept_laws.exec (fun straps e => absurd e (hup straps)) (fun e => absurd e hrestart)
      (fun _ _ _ => laws_same front ⟨rfl, rfl, rfl, rfl, rfl, .inl rfl⟩) (s := { s with pending := rest }) front hc
  exact risen.2.2

end Sys2Proof.Machine

/-! ### Steps: the command at the front, and the part's own clock (O1, O2) -/

namespace Sys2Proof.Machine

/-- Settles O1. -/
theorem stepTakesFrontCommand : Obligations.StepTakesFrontCommand := by
  intro c rest s hpending
  simp only [step, hpending]

section Clock

variable {s : State} {c : Instr} {id : SlotId}

theorem step_of_nextDue (hp : s.pending = []) (hdue : nextDue s = some c) : step s = exec c s := by
  simp only [step, hp, idle, hdue]

theorem step_of_nothing_due (hp : s.pending = []) (hdue : nextDue s = none) :
    step s = .next (passMicrosecond (clearOut s)) := by
  simp only [step, hp, idle, hdue]

theorem nextDue_of_resetHigh (hup : s.pins.resetLow = false) :
    nextDue s = ((List.finRange 8).findSome? (dueAtSlot s)).or ((dueAtPatrol s).or (dueAtTick s)) := by
  simp [nextDue, hup]

theorem dueAtSlot_of_issued {r : SlotRecord} (hslot : s.media.slots[id.val] = .issued r) :
    dueAtSlot s id = if 20 ≤ r.timer then some (.operationTimeout id) else none := by
  simp only [dueAtSlot, hslot]

theorem dueAtSlot_of_quarantined {t : Nat} (hslot : s.media.slots[id.val] = .quarantined t) :
    dueAtSlot s id = if 80 ≤ t then some (.quarantineExpiry id) else none := by
  simp only [dueAtSlot, hslot]

/-- No slot's timer is due while every operation is below 20 microseconds and every quarantine below 80. -/
theorem dueAtSlot_eq_none (hissued : ∀ r, s.media.slots[id.val] = .issued r → r.timer < 20)
    (hquarantined : ∀ t, s.media.slots[id.val] = .quarantined t → t < 80) : dueAtSlot s id = none := by
  cases hslot : s.media.slots[id.val] with
  | free => simp only [dueAtSlot, hslot]
  | issued r => rw [dueAtSlot_of_issued hslot, if_neg (Nat.not_le.mpr (hissued r hslot))]
  | quarantined t => rw [dueAtSlot_of_quarantined hslot, if_neg (Nat.not_le.mpr (hquarantined t hslot))]

theorem findSome?_slots_eq_none (h : ∀ id, dueAtSlot s id = none) : (List.finRange 8).findSome? (dueAtSlot s) = none :=
  List.findSome?_eq_none_iff.mpr fun id _ => h id

/-- The slots are looked at by identifier: the first that is due is found. -/
theorem findSome?_finRange_of_lowest {n : Nat} {f : Fin n → Option Instr} {i : Fin n} (hbelow : ∀ j < i, f j = none)
    (hi : f i = some c) : (List.finRange n).findSome? f = some c := by
  rw [List.findSome?_eq_some_iff]
  refine ⟨(List.finRange n).take i, i, (List.finRange n).drop (i + 1), ?_, hi, fun j hj => ?_⟩
  · have hlt : i.val < (List.finRange n).length := by simp
    have hsplit := (List.take_append_drop i (List.finRange n)).symm
    rwa [List.drop_eq_getElem_cons hlt, List.getElem_finRange] at hsplit
  · obtain ⟨k, hk, rfl⟩ := List.mem_take_iff_getElem.mp hj
    exact hbelow _ (by simp [Fin.lt_def]; omega)

theorem nextDue_of_slot (hup : s.pins.resetLow = false) (hbelow : ∀ j < id, dueAtSlot s j = none)
    (hdue : dueAtSlot s id = some c) : nextDue s = some c := by
  rw [nextDue_of_resetHigh hup, findSome?_finRange_of_lowest hbelow hdue]
  rfl

theorem nextDue_of_slots_run (hup : s.pins.resetLow = false) (hslots : ∀ id, dueAtSlot s id = none) :
    nextDue s = (dueAtPatrol s).or (dueAtTick s) := by
  rw [nextDue_of_resetHigh hup, findSome?_slots_eq_none hslots]
  rfl

theorem nextDue_of_patrol_runs (hup : s.pins.resetLow = false) (hslots : ∀ id, dueAtSlot s id = none)
    (hpatrol : s.settings.patrolInterval ≠ 0 → s.patrol.timer < s.settings.patrolInterval * 10) :
    nextDue s = dueAtTick s := by
  have hnone : dueAtPatrol s = none := if_neg fun ⟨hne, hle⟩ => Nat.not_le.mpr (hpatrol hne) hle
  rw [nextDue_of_slots_run hup hslots, hnone]
  rfl

/-- Settles O2: the clock looks at the slots, the patrol interval and the tick in this order. -/
theorem idleStepRunsTheClock : Obligations.IdleStepRunsTheClock := by
  intro s hp hup slotsRun patrolRuns
  have notDue : slotsRun → ∀ id, dueAtSlot s id = none := fun ⟨hissued, hquarantined⟩ id =>
    dueAtSlot_eq_none (hissued id) (hquarantined id)
  refine ⟨fun hslots hpatrol => ⟨fun htick => ?passes, fun htick hpace => ?tick, fun htick hpace => ?wrap⟩,
    fun hslots hne hdue => ?patrol, fun id hbelow => ⟨fun r hslot hr => ?timeout, fun t hslot ht => ?quarantine⟩⟩
  case passes =>
    have hdue : nextDue s = none := by
      rw [nextDue_of_patrol_runs hup (notDue hslots) hpatrol]
      exact if_neg (Nat.not_le.mpr htick)
    rw [step_of_nothing_due hp hdue, passMicrosecond, if_neg (by simpa [clearOut] using hup)]
    rfl
  case tick =>
    refine step_of_nextDue hp ?_
    rw [nextDue_of_patrol_runs hup (notDue hslots) hpatrol, dueAtTick, if_pos htick, if_neg (Nat.not_le.mpr hpace)]
  case wrap =>
    refine step_of_nextDue hp ?_
    rw [nextDue_of_patrol_runs hup (notDue hslots) hpatrol, dueAtTick, if_pos htick, if_pos hpace]
  case patrol =>
    refine step_of_nextDue hp ?_
    rw [nextDue_of_slots_run hup (notDue hslots), dueAtPatrol, if_pos ⟨hne, hdue⟩]
    rfl
  case timeout =>
    refine step_of_nextDue hp (nextDue_of_slot hup hbelow ?_)
    rw [dueAtSlot_of_issued hslot, if_pos hr]
  case quarantine =>
    refine step_of_nextDue hp (nextDue_of_slot hup hbelow ?_)
    rw [dueAtSlot_of_quarantined hslot, if_pos ht]

end Clock

end Sys2Proof.Machine

/-! ### The service port: reading commands (O3 to O5, O7 to O9) -/

namespace Sys2Proof.Machine

open Sys2Proof.Safety

section Received

variable {s : State} {code : Byte} {operands : List Byte}

@[simp] theorem received_channel : (received code operands s).channel = s.channel := rfl
@[simp] theorem received_lineMap : (received code operands s).lineMap = s.lineMap := rfl
@[simp] theorem received_media : (received code operands s).media = s.media := rfl
@[simp] theorem received_suspects : (received code operands s).suspects = s.suspects := rfl
@[simp] theorem received_queue : (received code operands s).queue = s.queue := rfl
@[simp] theorem received_journal : (received code operands s).journal = s.journal := rfl
@[simp] theorem received_opState : (received code operands s).opState = s.opState := rfl
@[simp] theorem received_haltCause : (received code operands s).haltCause = s.haltCause := rfl
@[simp] theorem received_patrol : (received code operands s).patrol = s.patrol := rfl
@[simp] theorem received_counters : (received code operands s).counters = s.counters := rfl
@[simp] theorem received_straps : (received code operands s).straps = s.straps := rfl
@[simp] theorem hostLines_received : hostLines (received code operands s) = hostLines s := rfl
@[simp] theorem spareCount_received (st : SpareState) : spareCount st (received code operands s) = spareCount st s := rfl

end Received

section Bytes

variable (r a bytes : List Byte) (k width : Nat)

@[simp] theorem length_n8 (n : Nat) : (n8 n).length = 1 := rfl
@[simp] theorem length_be16 (x : BitVec 16) : (be16 x).length = 2 := rfl
@[simp] theorem length_be32 (x : BitVec 32) : (be32 x).length = 4 := rfl
@[simp] theorem length_n16 (n : Nat) : (n16 n).length = 2 := rfl
@[simp] theorem length_n32 (n : Nat) : (n32 n).length = 4 := rfl
@[simp] theorem length_absent : (absent width).length = width := List.length_replicate

/-- The bytes behind a field that ends before them. -/
theorem resultBytes_append_of_le {k : Nat} (h : a.length ≤ k) :
    resultBytes (a ++ r) k width = resultBytes r (k - a.length) width := by
  rw [resultBytes, List.drop_append, List.drop_of_length_le h, List.nil_append, resultBytes]

/-- A field's own bytes. -/
theorem resultBytes_append_zero {width : Nat} (h : bytes.length = width) : resultBytes (bytes ++ r) 0 width = bytes := by
  subst h
  simp [resultBytes]

end Bytes

section Reads

variable {s : State}

/-- Fields one after another: each stands where the widths of those before it add up to. -/
theorem holds_flatten {fields : List (List Byte)} {widths : List Nat} {start : Nat} {bytes : List Byte}
    (hwidths : fields.map List.length = widths) (k : Nat) (hk : fields[k]? = some bytes)
    (hstart : (widths.take k).sum = start) : Holds fields.flatten start bytes := by
  subst hwidths hstart
  induction fields generalizing k with
  | nil => simp at hk
  | cons f fs ih =>
    cases k with
    | zero =>
      obtain rfl : f = bytes := by simpa using hk
      exact resultBytes_append_zero _ _ rfl
    | succ k =>
      have h := ih k (by simpa using hk)
      rw [Holds, List.flatten_cons, resultBytes_append_of_le _ _ _ (by simp)]
      simpa using h

/-- The fields of GET_STATUS, in the order of R197. -/
def statusFields (s : State) : List (List Byte) :=
  [n8 (opStateCode s.opState), n8 (haltCauseCode s.haltCause), n8 s.straps.toNat, n32 (mediaLinesOf s.straps),
    n32 (hostLines s), n8 (journalStateCode s.journal.state), n8 (halfCode s.journal.active), be32 s.journal.generation,
    n16 s.journal.tail, n16 (freeSlots s), n16 (flagsSet s.journal.bitmap),
    be16 ((s.journal.uncertain.map (BitVec.ofNat 16)).getD (BitVec.allOnes 16)),
    n16 s.lineMap.entries.length, n16 (spareCount .free s), n16 (spareCount .reserved s), n16 (spareCount .inUse s),
    n16 (spareCount .discarded s), n8 s.suspects.length, n8 s.queue.length, n8 s.notices.queue.length,
    be16 s.notices.sequence, be32 s.notices.partTime, n8 s.notices.pace, n8 (flagCode s.notices.alert),
    n8 (flagCode s.notices.armed), be32 s.patrol.sweep, n32 s.patrol.cursor, n32 s.patrol.liveStart,
    n32 s.patrol.liveEnd, n8 (modeCode s.patrol.liveMode), n8 (flagCode s.patrol.parity),
    n8 (flagCode s.patrol.step.isSome)]

theorem statusBytes_eq (s : State) : statusBytes s = (statusFields s).flatten := by
  unfold statusBytes statusFields
  simp only [List.flatten_cons, List.flatten_nil, List.append_nil]
  simp only [List.append_assoc]
  congr 12
  cases s.journal.uncertain <;> rfl

theorem statusFields_widths (s : State) :
    (statusFields s).map List.length =
      [1, 1, 1, 4, 4, 1, 1, 4, 2, 2, 2, 2, 2, 2, 2, 2, 2, 1, 1, 1, 2, 4, 1, 1, 1, 4, 4, 4, 4, 1, 1, 1] := by
  simp only [statusFields, List.map_cons, List.map_nil, length_n8, length_n16, length_n32, length_be16, length_be32]

theorem statusFields_received (code : Byte) (operands : List Byte) :
    statusFields (received code operands s) = statusFields s := by
  simp only [statusFields, freeSlots, received_opState, received_haltCause, received_straps, hostLines_received,
    received_journal, received_lineMap, spareCount_received, received_suspects, received_queue, received_notices,
    received_patrol]

/-- Settles O3: the answer is the fields of R197 one after another. -/
theorem getStatusReturnsEveryValue : Obligations.GetStatusReturnsEveryValue := by
  intro s hfree
  refine ⟨statusBytes (received 1 [] s), serve_of_portFree hfree rfl, ?_⟩
  rw [statusBytes_eq, statusFields_received]
  have field := fun k {start bytes} hk => holds_flatten (start := start) (bytes := bytes) (statusFields_widths s) k hk
  exact ⟨by rw [List.length_flatten, statusFields_widths]; rfl, field 0 rfl rfl, field 1 rfl rfl, field 2 rfl rfl, field 3 rfl rfl,
    field 4 rfl rfl, field 5 rfl rfl, field 6 rfl rfl, field 7 rfl rfl, field 8
    rfl rfl, field 9 rfl rfl, field 10 rfl rfl,
    fun k hk => field 11 (by rw [statusFields, hk]; rfl) rfl,
    fun hk => field 11 (by rw [statusFields, hk]; rfl) rfl, field 12 rfl rfl,
    field 13 rfl rfl, field 14 rfl rfl, field 15 rfl rfl, field 16 rfl rfl,
    field 17 rfl rfl, field 18 rfl rfl, field 19 rfl rfl, field 20 rfl rfl,
    field 21 rfl rfl, field 22 rfl rfl, field 23 rfl rfl, field 24 rfl rfl,
    field 25 rfl rfl, field 26 rfl rfl, field 27 rfl rfl, field 28 rfl rfl,
    field 29 rfl rfl, field 30 rfl rfl, field 31 rfl rfl⟩

/-- A field of constant width stands at its index times the width. -/
theorem holds_flatMap_be32 {l : List (BitVec 32)} {k : Nat} {v : BitVec 32} (hk : l[k]? = some v) :
    Holds (l.flatMap be32) (4 * k) (be32 v) := by
  induction l generalizing k with
  | nil => simp at hk
  | cons x xs ih =>
    cases k with
    | zero =>
      obtain rfl : x = v := by simpa using hk
      rfl
    | succ k =>
      have hdrop : (be32 x ++ xs.flatMap be32).drop (4 * (k + 1)) = (xs.flatMap be32).drop (4 * k) := by
        rw [show 4 * (k + 1) = (be32 x).length + 4 * k from by simp [be32]; omega, ← List.drop_drop, List.drop_left]
      rw [Holds, resultBytes, List.flatMap_cons, hdrop]
      exact ih (by simpa using hk)

/-- Settles O4, from the three answers of the command. -/
theorem getCountersReturnsAndClears : Obligations.GetCountersReturnsAndClears := by
  intro clear s hfree
  refine ⟨counterBytes s.counters, rfl, fun k v hk => holds_flatMap_be32 hk, fun h => ?kept, fun h => ?cleared,
    fun h0 h1 => ?refused⟩
  case kept => exact serve_of_portFree hfree (by rw [answerGetCounters, if_pos h]; rfl)
  case cleared => exact serve_of_portFree hfree (by subst h; rfl)
  case refused => exact serve_of_portFree hfree (by rw [answerGetCounters, if_neg h0, if_neg h1]; rfl)

theorem settingValue_of_lt {st : Settings} {index : Byte} {v : Nat}
    (hv : [st.patrolInterval, st.patrolStart, st.patrolEnd, modeCode st.patrolMode, flagCode st.autoRetire, st.heavyTotal,
        st.softLimit, flagCode st.verifyWrites, flagCode st.trackSoft, st.spareLowMark, st.pacePeriod,
        st.urgentMask.toNat][index.toNat]? = some v) :
    settingValue st index = some (BitVec.ofNat 32 v) := by
  have hlt : index.toNat < 12 := (List.getElem?_eq_some_iff.mp hv).1
  unfold settingValue
  generalize index.toNat = i at hv hlt
  interval_cases i
  all_goals
    obtain rfl := Option.some_inj.mp hv
    first | rfl | exact congrArg some (BitVec.eq_of_toNat_eq (by simp))

theorem settingValue_eq_none {st : Settings} {index : Byte} (h : 11 < index.toNat) : settingValue st index = none := by
  unfold settingValue
  split <;> first | omega | rfl

/-- Settles O5, from the setting's value at an index of the table and beyond it. -/
theorem readSettingReturnsTheValueInForce : Obligations.ReadSettingReturnsTheValueInForce := by
  intro index s hfree
  refine ⟨fun v hv => ?value, fun h => ?refused⟩
  case value =>
    have hvalue : settingValue (received 3 [index] s).settings index = some (BitVec.ofNat 32 v) := settingValue_of_lt hv
    exact serve_of_portFree hfree (by rw [answerReadSetting, hvalue]; rfl)
  case refused =>
    have hnone : settingValue (received 3 [index] s).settings index = none := settingValue_eq_none h
    exact serve_of_portFree hfree (by rw [answerReadSetting, hnone]; rfl)

end Reads

end Sys2Proof.Machine

namespace Sys2Proof.Machine

open Sys2Proof.Safety

section Notice

/-- The fields of a notice in the results, in the order of 12.4. -/
def noticeFields (n : Notice) : List (List Byte) :=
  [n8 (noticeCode n.kind), be16 n.sequence, be32 n.partTime,
    n8 (flagCode n.hostLine.isSome + 2 * flagCode n.spare.isSome + 4 * flagCode n.oldSpare.isSome),
    (n.hostLine.map n32).getD (absent 4), (n.spare.map fun x => n16 x.val).getD (absent 2),
    (n.oldSpare.map fun x => n16 x.val).getD (absent 2), n8 n.values.length]
    ++ (List.range 6).map fun k => (n.values[k]?.map be32).getD (absent 4)

theorem noticeBytes_eq (n : Notice) : noticeBytes n = (noticeFields n).flatten := by
  obtain ⟨kind, sequence, partTime, hostLine, spare, oldSpare, values⟩ := n
  have hvalue : ∀ k : Nat, (match values[k]? with | some v => be32 v | none => absent 4) =
      (values[k]?.map be32).getD (absent 4) := fun k => by cases values[k]? <;> rfl
  simp only [noticeBytes, noticeFields, List.flatMap_def, List.flatten_append, List.flatten_cons, List.flatten_nil,
    List.append_assoc, List.append_nil]
  congr 5
  · cases hostLine <;> rfl
  congr 1
  · cases spare <;> rfl
  congr 1
  · cases oldSpare <;> rfl
  congr 2
  exact congrArg (fun f => (List.range 6).map f) (funext hvalue)

theorem length_getD_n32 (o : Option Nat) : ((o.map n32).getD (absent 4)).length = 4 := by
  cases o <;> rfl

theorem length_getD_be32 (o : Option (BitVec 32)) : ((o.map be32).getD (absent 4)).length = 4 := by
  cases o <;> rfl

theorem length_getD_spare (o : Option Spare) : ((o.map fun x => n16 x.val).getD (absent 2)).length = 2 := by
  cases o <;> rfl

theorem noticeFields_widths (n : Notice) :
    (noticeFields n).map List.length = [1, 2, 4, 1, 4, 2, 2, 1, 4, 4, 4, 4, 4, 4] := by
  simp [noticeFields, length_getD_n32, length_getD_be32, length_getD_spare, List.range_succ]

/-- Settles O7: the 41 bytes are the fields of 12.4 one after another. -/
theorem noticeBytesHoldEveryField : Obligations.NoticeBytesHoldEveryField := by
  intro n
  rw [noticeBytes_eq]
  have field := fun k {start bytes} hk => holds_flatten (start := start) (bytes := bytes) (noticeFields_widths n) k hk
  refine ⟨by rw [List.length_flatten, noticeFields_widths]; rfl, field 0 rfl rfl, field 1 rfl rfl, field 2 rfl rfl,
    field 3 rfl rfl, field 4 rfl rfl, field 5 rfl rfl, field 6 rfl rfl, field 7 rfl rfl, fun k hk => ?_⟩
  interval_cases k
  · exact field 8 rfl rfl
  · exact field 9 rfl rfl
  · exact field 10 rfl rfl
  · exact field 11 rfl rfl
  · exact field 12 rfl rfl
  · exact field 13 rfl rfl

end Notice

section Lookup

variable {s : State} {hostLine : Nat}

theorem getElem?_findIdx_of_find? {α : Type} {l : List α} {p : α → Bool} {a : α} (h : l.find? p = some a) :
    l[l.findIdx p]? = some a := by
  rw [← List.find?_eq_getElem?_findIdx, h]

theorem mappingBytes_of_unmapped (hm : mapEntry s hostLine = none) :
    mappingBytes s hostLine = n8 0 ++ n32 (5120 + hostLine) ++ List.replicate 7 255 := by
  rw [mappingBytes, hm, translate_of_unmapped hm]
  rfl

theorem mappingBytes_of_mapped {e : MapEntry} (hm : mapEntry s hostLine = some e) :
    mappingBytes s hostLine =
      n8 1 ++ n32 (4096 + e.spare.val) ++ n16 e.spare.val ++ n8 (originCode e.origin) ++ be32 e.generation := by
  rw [mappingBytes, hm, translate_of_mapped hm]

theorem suspectBytes_of_unlisted (h : suspectOf s hostLine = none) :
    suspectBytes s hostLine = n8 0 ++ List.replicate 8 255 := by
  rw [suspectBytes, h]
  rfl

theorem suspectBytes_of_listed {e : Suspect} (h : suspectOf s hostLine = some e) :
    suspectBytes s hostLine =
      n8 1 ++ n8 (reasonCode e.reason) ++ n8 e.hits ++ be32 e.sweep ++ n8 (originCode e.origin)
        ++ n8 (s.suspects.findIdx (·.hostLine == hostLine)) := by
  rw [suspectBytes, h]

theorem jobBytes_of_unlocked (h : jobOf s hostLine = none) : jobBytes s hostLine = n8 0 ++ List.replicate 11 255 := by
  rw [jobBytes, h]
  rfl

/-- The fields of a job in LOOKUP_LINE, in the order of 12.4. -/
def jobFields (j : Job) (k : Nat) : List (List Byte) :=
  [n8 1 ++ n8 k ++ n8 (jobStateCode j.state) ++ n8 (jobKindCode j.kind),
    (j.kind.oldSpare.map fun x => n16 x.val).getD (absent 2),
    n8 (sourceCode j.source) ++ n8 (originCode j.origin) ++ n8 j.attempts,
    (j.reserved.map fun x => n16 x.val).getD (absent 2), n8 (flagCode j.originator.isSome)]

theorem jobBytes_of_locked {j : Job} (h : jobOf s hostLine = some j) :
    jobBytes s hostLine = (jobFields j (s.queue.findIdx (·.hostLine == hostLine))).flatten := by
  rw [jobBytes, h, jobFields]
  dsimp only
  cases j.kind.oldSpare <;> cases j.reserved <;> rfl

theorem length_mappingBytes : (mappingBytes s hostLine).length = 12 := by
  cases hm : mapEntry s hostLine with
  | none => rw [mappingBytes_of_unmapped hm]; rfl
  | some e => rw [mappingBytes_of_mapped hm]; rfl

theorem length_suspectBytes : (suspectBytes s hostLine).length = 9 := by
  cases h : suspectOf s hostLine with
  | none => rw [suspectBytes_of_unlisted h]; rfl
  | some e => rw [suspectBytes_of_listed h]; rfl

theorem jobFields_widths (j : Job) (k : Nat) : (jobFields j k).map List.length = [4, 2, 3, 2, 1] := by
  simp [jobFields, length_getD_spare]

theorem length_jobBytes : (jobBytes s hostLine).length = 12 := by
  cases h : jobOf s hostLine with
  | none => rw [jobBytes_of_unlocked h]; rfl
  | some j => rw [jobBytes_of_locked h, List.length_flatten, jobFields_widths]; rfl

/-- Settles O8: the 33 bytes are the mapping, the suspect entry and the job of the line. -/
theorem lookupLineReturnsTheLine : Obligations.LookupLineReturnsTheLine := by
  intro line s hfree
  refine ⟨fun hge => ?refused, fun hlt => ?found⟩
  case refused =>
    refine serve_of_portFree hfree ?_
    rw [answerLookupLine, hostLines_received, if_neg (Nat.not_lt.mpr hge)]
    rfl
  case found =>
    have hwidths : [mappingBytes s line.toNat, suspectBytes s line.toNat, jobBytes s line.toNat].map List.length =
        [12, 9, 12] := by
      simp [length_mappingBytes, length_suspectBytes, length_jobBytes]
    have hanswer : answerLookupLine line.toNat (received 8 (be32 line) s) =
        (.answer .done [mappingBytes s line.toNat, suspectBytes s line.toNat, jobBytes s line.toNat].flatten,
          received 8 (be32 line) s) := by
      rw [answerLookupLine, hostLines_received, if_pos hlt]
      simp only [List.flatten_cons, List.flatten_nil, List.append_nil, List.append_assoc]
      rfl
    refine ⟨_, serve_of_portFree hfree hanswer, by rw [List.length_flatten, hwidths]; rfl, fun hm => ?unmapped,
      fun e hm => ?mapped, fun h => ?unlisted, fun e h => ⟨_, getElem?_findIdx_of_find? h, ?listed⟩, fun h => ?unlocked,
      fun j h => ⟨_, getElem?_findIdx_of_find? h, ?_⟩⟩
    case unmapped => exact holds_flatten hwidths 0 (congrArg some (mappingBytes_of_unmapped hm)) rfl
    case mapped => exact holds_flatten hwidths 0 (congrArg some (mappingBytes_of_mapped hm)) rfl
    case unlisted => exact holds_flatten hwidths 1 (congrArg some (suspectBytes_of_unlisted h)) rfl
    case listed => exact holds_flatten hwidths 1 (congrArg some (suspectBytes_of_listed h)) rfl
    case unlocked => exact holds_flatten hwidths 2 (congrArg some (jobBytes_of_unlocked h)) rfl
    -- The job's fields stand behind the mapping and the suspect entry.
    have hsplit : [mappingBytes s line.toNat, suspectBytes s line.toNat, jobBytes s line.toNat].flatten =
        (mappingBytes s line.toNat :: suspectBytes s line.toNat
          :: jobFields j (s.queue.findIdx (·.hostLine == line.toNat))).flatten := by
      simp [jobBytes_of_locked h]
    have hfields : (mappingBytes s line.toNat :: suspectBytes s line.toNat
        :: jobFields j (s.queue.findIdx (·.hostLine == line.toNat))).map List.length = [12, 9, 4, 2, 3, 2, 1] := by
      simp [length_mappingBytes, length_suspectBytes, jobFields_widths]
    rw [hsplit]
    exact ⟨holds_flatten hfields 2 rfl rfl, holds_flatten hfields 3 rfl rfl, holds_flatten hfields 4 rfl rfl,
      holds_flatten hfields 5 rfl rfl, holds_flatten hfields 6 rfl rfl⟩

end Lookup

section SpareAndSuspect

variable {s : State}

/-- The entry that names a spare, where no two entries name one. -/
theorem entryOfSpare_of_mem {e : MapEntry} (he : e ∈ s.lineMap.entries)
    (hnodup : (s.lineMap.entries.map MapEntry.spare).Nodup) : entryOfSpare s e.spare = some e := by
  unfold entryOfSpare
  generalize s.lineMap.entries = l at he hnodup
  induction l with
  | nil => simp at he
  | cons x xs ih =>
    obtain ⟨hx, hxs⟩ := List.nodup_cons.mp hnodup
    rcases List.mem_cons.mp he with rfl | he
    · simp
    · have hne : x.spare ≠ e.spare := fun heq => hx (heq ▸ List.mem_map_of_mem he)
      simpa [List.find?_cons, hne] using ih he hxs

theorem spareOf_of_le {x : BitVec 16} (h : 1024 ≤ x.toNat) : spareOf x = none := dif_neg (Nat.not_lt.mpr h)

theorem spareOf_of_eq {x : BitVec 16} {i : Spare} (h : x.toNat = i.val) : spareOf x = some i := by
  have hlt : x.toNat < 1024 := h ▸ i.isLt
  rw [spareOf, dif_pos hlt]
  exact congrArg some (Fin.ext h)

/-- Settles O9, command by command. -/
theorem spareAndSuspectCommands : Obligations.SpareAndSuspectCommands := by
  refine ⟨⟨fun operand s hfree => ⟨fun hge => ?spareRefused, fun i hi =>
    ⟨(spareHostLine s i).elim (absent 4) n32, ?spare, ?inUse, ?reserved, ?free⟩⟩,
    fun position s hfree => ⟨fun hge => ?positionRefused, fun hlt => ⟨fun hlen => ?beyond, fun e he => ?suspect⟩⟩⟩,
    fun line s hfree => ⟨fun hge => ?lineRefused, fun hlt => ?cleared⟩⟩
  case spareRefused => exact serve_of_portFree hfree (by rw [answerReadSpare, spareOf_of_le hge]; rfl)
  case spare =>
    refine serve_of_portFree hfree ?_
    have hline : spareHostLine (received 9 (be16 operand) s) i = spareHostLine s i := rfl
    cases h : spareHostLine s i
    all_goals
      simp only [answerReadSpare, spareOf_of_eq hi, hline, h]
      rfl
  case inUse =>
    rintro e he huse rfl hnodup
    simp [spareHostLine, huse, entryOfSpare_of_mem he hnodup]
  case reserved =>
    intro j rest hreserved hq
    simp [spareHostLine, hreserved, hq]
  case free =>
    rintro (h | h)
    all_goals simp [spareHostLine, h]
  case positionRefused => exact serve_of_portFree hfree (by rw [answerReadSuspect, if_pos hge]; rfl)
  case beyond =>
    refine serve_of_portFree hfree ?_
    rw [answerReadSuspect, if_neg (Nat.not_le.mpr hlt), received_suspects, List.getElem?_eq_none hlen]
    rfl
  case suspect =>
    refine serve_of_portFree hfree ?_
    rw [answerReadSuspect, if_neg (Nat.not_le.mpr hlt), received_suspects, he]
  case lineRefused =>
    refine serve_of_portFree hfree ?_
    rw [answerClearSuspect, hostLines_received, if_neg (Nat.not_lt.mpr hge)]
    rfl
  case cleared =>
    refine serve_of_portFree hfree ?_
    rw [answerClearSuspect, hostLines_received, if_pos hlt]
    have hlisted : isListed (received 11 (be32 line) s) line.toNat = s.suspects.any fun e => e.hostLine == line.toNat :=
      Tracked.isListed_eq_any _ _
    rw [hlisted]
    cases s.suspects.any fun e => e.hostLine == line.toNat <;> rfl

end SpareAndSuspect

end Sys2Proof.Machine

/-! ### WRITE_SETTING (O10) -/

namespace Sys2Proof.Machine

open Sys2Proof.Safety

section WriteSetting

variable {s : State} {index : Byte} {value : BitVec 32} {st : Settings}

/-- An even value has bit 0 clear. -/
theorem getLsbD_zero_eq_false_iff : value.getLsbD 0 = false ↔ value.toNat % 2 = 0 := by
  simp [BitVec.getLsbD, Nat.testBit_zero]

/-- A write is refused where its value is out of the setting's range. -/
theorem writtenSettings_eq_none (h : ¬ SettingRange s index value) :
    writtenSettings s.settings (hostLines s) index value = none := by
  unfold SettingRange at h
  unfold writtenSettings
  dsimp only at h ⊢
  generalize index.toNat = i at h ⊢
  split
  case h_4 =>
    have hgt : ¬ value.toNat ≤ 1 := h
    rw [if_neg (by omega), if_neg (by omega)]
  case h_12 =>
    refine if_neg fun ⟨hlt, hbit⟩ => h ⟨Nat.le_of_lt_succ hlt, getLsbD_zero_eq_false_iff.mp hbit⟩
  case h_13 => rfl
  all_goals exact if_neg h

/-- A write in the range is answered with index and value. -/
theorem exec_writeSetting_of_written (hfree : PortFree s)
    (hst : writtenSettings s.settings (hostLines s) index value = some st) (hvalue : settingValue st index = some value) :
    exec (.writeSetting index value) s =
      .next (answered 4 .done (index :: be32 value)
        (settingWritten index { received 4 (index :: be32 value) s with settings := st })) := by
  refine serve_of_portFree hfree ?_
  rw [answerWriteSetting, received_settings, hostLines_received, hst]
  dsimp only
  rw [hvalue]
  rfl

theorem ofNat_toNat_eq : BitVec.ofNat 32 value.toNat = value := by simp

theorem modeCode_of_le_one (h : value.toNat ≤ 1) :
    BitVec.ofNat 32 (modeCode (if value.toNat = 0 then .linear else .split)) = value := by
  apply BitVec.eq_of_toNat_eq
  split_ifs with h0
  · simp [modeCode, h0]
  · simp only [modeCode, BitVec.toNat_ofNat]
    omega

theorem flagCode_of_le_one (h : value.toNat ≤ 1) : BitVec.ofNat 32 (flagCode (decide (value.toNat = 1))) = value := by
  apply BitVec.eq_of_toNat_eq
  by_cases h1 : value.toNat = 1
  · simp [flagCode, h1]
  · simp only [flagCode, h1, decide_false, Bool.false_eq_true, if_false, BitVec.toNat_ofNat]
    omega

theorem setWidth_setWidth_of_lt (h : value.toNat ≤ 65535) : (value.setWidth 16).setWidth 32 = value := by
  apply BitVec.eq_of_toNat_eq
  simp
  omega

/-- Settles O10, setting by setting. -/
theorem writeSettingReplacesTheValue : Obligations.WriteSettingReplacesTheValue := by
  intro index value s hfree v r takes
  have takes_of : ∀ {st t}, writtenSettings s.settings (hostLines s) index value = some st →
      settingValue st index = some value → settingWritten index { r with settings := st } = t → takes t :=
    fun hst hvalue ht => ht ▸ exec_writeSetting_of_written hfree hst hvalue
  refine ⟨fun hout => ?refused, fun hin => ⟨?i0, ?i1, ?i2, ?i3, ?i4, ?i5, ?i6, ?i7, ?i8, ?i9, ?i10, ?i11⟩⟩
  case refused =>
    refine serve_of_portFree hfree ?_
    rw [answerWriteSetting, received_settings, hostLines_received, writtenSettings_eq_none hout]
    rfl
  case i3 =>
    rintro rfl
    have hle : value.toNat ≤ 1 := hin
    refine takes_of (st := { s.settings with patrolMode := if v = 0 then .linear else .split }) ?_
      (congrArg some (modeCode_of_le_one hle)) rfl
    by_cases h0 : v = 0
    · rw [if_pos h0]
      exact if_pos h0
    · rw [if_neg h0]
      have h1 : v = 1 := by omega
      exact (if_neg h0).trans (if_pos h1)
  case i10 =>
    rintro rfl
    refine takes_of (if_pos hin) (congrArg some ofNat_toNat_eq) ?_
    show (if v ≤ s.notices.pace then _ else _) = _
    split_ifs <;> rfl
  case i11 =>
    rintro rfl
    obtain ⟨hle, heven⟩ := id hin
    exact takes_of (if_pos ⟨Nat.lt_succ_of_le hle, getLsbD_zero_eq_false_iff.mpr heven⟩)
      (congrArg some (setWidth_setWidth_of_lt hle)) rfl
  case i4 =>
    rintro rfl
    exact takes_of (if_pos hin) (congrArg some (flagCode_of_le_one hin)) rfl
  case i7 =>
    rintro rfl
    exact takes_of (if_pos hin) (congrArg some (flagCode_of_le_one hin)) rfl
  case i8 =>
    rintro rfl
    exact takes_of (if_pos hin) (congrArg some (flagCode_of_le_one hin)) rfl
  all_goals
    rintro rfl
    exact takes_of (if_pos hin) (congrArg some ofNat_toNat_eq) rfl

end WriteSetting

end Sys2Proof.Machine

/-! ### What the Patrol Unit, the Notice Unit and the counters do reads nothing else but the settings

`reframe u s` is the state `u` with the patrol, the notices, the counters, the passed-over count and the settings of `s`. An
operation that is `PatrolOnly` does the same in every such state, and so a change of any other field can be made before it or
after it. -/

namespace Sys2Proof.Machine

/-- The patrol, the notices, the counters, the passed-over count and the settings of `s`, and the rest of `u`. -/
def reframe (u s : State) : State :=
  { u with
    media := { u.media with passedOver := s.media.passedOver }
    patrol := s.patrol
    notices := s.notices
    settings := s.settings
    counters := s.counters }

theorem reframe_self (s : State) : reframe s s = s := rfl

/-- An operation that reads and changes the patrol, the notices, the counters and the passed-over count, and reads the
settings. -/
structure PatrolOnly (op : State → State) : Prop where
  reframed : ∀ u s, op (reframe u s) = reframe u (op s)
  outside : ∀ s, OutsidePatrol s (op s)

namespace PatrolOnly

variable {f g op : State → State}

theorem id : PatrolOnly fun s => s := ⟨fun _ _ => rfl, .refl⟩

theorem comp (hg : PatrolOnly g) (hf : PatrolOnly f) : PatrolOnly fun s => g (f s) where
  reframed u s := by rw [hf.reframed, hg.reframed]
  outside s := by
    have a := hf.outside s
    have b := hg.outside (f s)
    exact ⟨b.channel.trans a.channel, b.lineMap.trans a.lineMap, b.slots.trans a.slots, b.suspects.trans a.suspects,
      b.queue.trans a.queue, b.journal.trans a.journal, b.opState.trans a.opState, b.haltCause.trans a.haltCause,
      b.port.trans a.port, b.settings.trans a.settings, b.straps.trans a.straps, b.pins.trans a.pins, b.out.trans a.out,
      b.pending.trans a.pending⟩

/-- A choice by what such an operation reads. -/
theorem ite {c : State → Prop} [DecidablePred c] (hc : ∀ u s, c (reframe u s) ↔ c s) (hf : PatrolOnly f)
    (hg : PatrolOnly g) : PatrolOnly fun s => if c s then f s else g s where
  reframed u s := by
    by_cases h : c s
    · simp only [(hc u s).mpr h, h, if_true, hf.reframed]
    · simp only [mt (hc u s).mp h, h, if_false, hg.reframed]
  outside s := by
    split
    · exact hf.outside s
    · exact hg.outside s

theorem eq_reframe {s t : State} (h : OutsidePatrol s t) : t = reframe s t := by
  obtain ⟨hchannel, hmap, hslots, hsuspects, hqueue, hjournal, hop, hhalt, hport, _, hstraps, hpins, hout, hpending⟩ := h
  simp only [reframe, ← hchannel, ← hmap, ← hslots, ← hsuspects, ← hqueue, ← hjournal, ← hop, ← hhalt, ← hport, ← hstraps,
    ← hpins, ← hout, ← hpending]

/-- Such an operation comes out of a change of what it does not read. -/
theorem comm (h : PatrolOnly op) {change : State → State} (hchange : ∀ s t, change (reframe s t) = reframe (change s) t)
    (s : State) : op (change s) = change (op s) := by
  calc op (change s) = op (reframe (change s) s) := by rw [← hchange, reframe_self]
    _ = reframe (change s) (op s) := h.reframed _ _
    _ = change (op s) := by rw [← hchange, ← eq_reframe (h.outside s)]

section Fields

variable (h : PatrolOnly op) {s : State}
include h

theorem suspects_comm (l : List Suspect) : op { s with suspects := l } = { op s with suspects := l } :=
  h.comm (change := fun s => { s with suspects := l }) (fun _ _ => rfl) s

theorem queue_comm (q : List Job) : op { s with queue := q } = { op s with queue := q } :=
  h.comm (change := fun s => { s with queue := q }) (fun _ _ => rfl) s

theorem journal_comm (j : Journal) : op { s with journal := j } = { op s with journal := j } :=
  h.comm (change := fun s => { s with journal := j }) (fun _ _ => rfl) s

end Fields

end PatrolOnly

/-! #### Notices -/

theorem patrolOnly_alertRequest : PatrolOnly alertRequest :=
  .ite (c := fun s => s.notices.alert = true) (fun _ _ => .rfl)
    (f := fun s => { s with notices := { s.notices with armed := true } })
    (g := fun s => { s with notices := { s.notices with alert := true } })
    ⟨fun _ _ => rfl, fun s => { OutsidePatrol.refl s with }⟩ ⟨fun _ _ => rfl, fun s => { OutsidePatrol.refl s with }⟩

theorem patrolOnly_raise {kind hostLine spare oldSpare values} : PatrolOnly (raise kind hostLine spare oldSpare values) := by
  have entered : PatrolOnly fun s : State =>
      { s with
        notices :=
          { s.notices with
            sequence := s.notices.sequence + 1
            queue := s.notices.queue ++ [noticeOf s kind hostLine spare oldSpare values] } } :=
    ⟨fun _ _ => rfl, fun s => { OutsidePatrol.refl s with }⟩
  have dropped : PatrolOnly fun s : State =>
      { s with
        notices := { s.notices with sequence := s.notices.sequence + 1 }
        counters := { s.counters with noticesDropped := satInc s.counters.noticesDropped } } :=
    ⟨fun _ _ => rfl, fun s => { OutsidePatrol.refl s with }⟩
  exact .ite (c := fun s => s.notices.queue.length < 32) (fun _ _ => .rfl)
    (.ite (c := fun s => isUrgent s.settings.urgentMask kind = true) (fun _ _ => .rfl)
      (patrolOnly_alertRequest.comp entered) entered) dropped

/-! #### The patrol -/

/-- A change of the patrol by what such an operation reads. -/
theorem patrolOnly_patrol {p : State → Patrol} (hp : ∀ u s, p (reframe u s) = p s) :
    PatrolOnly fun s => { s with patrol := p s } :=
  ⟨fun u s => by simp only [hp]; rfl, fun s => { OutsidePatrol.refl s with }⟩

/-- A change of the counters by what such an operation reads. -/
theorem patrolOnly_counters (c : Counters → Counters) : PatrolOnly fun s => { s with counters := c s.counters } :=
  ⟨fun _ _ => rfl, fun s => { OutsidePatrol.refl s with }⟩

theorem patrolOnly_sweepEndTrigger : PatrolOnly sweepEndTrigger := by
  have zeroed : PatrolOnly fun s : State => { s with notices := { s.notices with pace := 0 } } :=
    ⟨fun _ _ => rfl, fun s => { OutsidePatrol.refl s with }⟩
  exact zeroed.comp (.ite (c := fun s => halfPeriod s ≤ s.notices.pace ∧ s.notices.queue ≠ []) (fun _ _ => .rfl)
    patrolOnly_alertRequest .id)

theorem patrolOnly_adoptRegion : PatrolOnly adoptRegion := patrolOnly_patrol fun _ _ => rfl

theorem patrolOnly_sweepEnd : PatrolOnly sweepEnd where
  reframed u s := by
    have counted : PatrolOnly fun s => { s with patrol := { s.patrol with sweep := s.patrol.sweep + 1 } } :=
      patrolOnly_patrol fun _ _ => rfl
    have cleared : PatrolOnly fun s => { s with patrol := { s.patrol with tallies := .zero } } :=
      patrolOnly_patrol fun _ _ => rfl
    exact (patrolOnly_adoptRegion.comp (patrolOnly_sweepEndTrigger.comp (cleared.comp
      ((patrolOnly_raise (values := [s.patrol.sweep + 1, s.patrol.tallies.lines, s.patrol.tallies.soft,
        s.patrol.tallies.heavy, s.patrol.tallies.lost, s.patrol.tallies.skipped])).comp counted)))).reframed u s
  outside _ := sweepEnd_outside

theorem patrolOnly_advanceCursor : PatrolOnly advanceCursor :=
  .ite (c := fun s => s.patrol.liveEnd < s.patrol.cursor + (match s.patrol.liveMode with | .linear => 1 | .split => 2))
    (fun _ _ => .rfl) (patrolOnly_sweepEnd.comp (patrolOnly_patrol fun _ _ => rfl)) (patrolOnly_patrol fun _ _ => rfl)

/-- A choice by the patrol's step. -/
theorem PatrolOnly.byStep {f : Option PatrolStep → State → State} (hf : ∀ o, PatrolOnly (f o)) :
    PatrolOnly fun s => f s.patrol.step s :=
  ⟨fun u s => (hf s.patrol.step).reframed u s, fun s => (hf s.patrol.step).outside s⟩

theorem patrolOnly_endStep : PatrolOnly endStep := by
  refine .byStep (f := fun o s => match o with
    | none => s
    | some st =>
      if st.sweep = s.patrol.sweep then advanceCursor { s with patrol := { s.patrol with step := none } }
      else { s with patrol := { s.patrol with step := none } }) fun o => ?_
  have removed : PatrolOnly fun s => { s with patrol := { s.patrol with step := none } } :=
    patrolOnly_patrol fun _ _ => rfl
  cases o with
  | none => exact .id
  | some st =>
    exact .ite (c := fun s => st.sweep = s.patrol.sweep) (fun _ _ => .rfl) (patrolOnly_advanceCursor.comp removed) removed

theorem patrolOnly_tallySkipped : PatrolOnly tallySkipped := patrolOnly_patrol fun _ _ => rfl

theorem patrolOnly_countSkipped : PatrolOnly countSkipped :=
  patrolOnly_counters fun c => { c with patrolSkipped := satInc c.patrolSkipped }

theorem patrolOnly_skipStep : PatrolOnly skipStep := by
  refine .byStep (f := fun o s => match o with
    | none => s
    | some st => endStep (if st.sweep = s.patrol.sweep then tallySkipped (countSkipped s) else countSkipped s)) fun o => ?_
  cases o with
  | none => exact .id
  | some st =>
    exact patrolOnly_endStep.comp (.ite (c := fun s => st.sweep = s.patrol.sweep) (fun _ _ => .rfl)
      (patrolOnly_tallySkipped.comp patrolOnly_countSkipped) patrolOnly_countSkipped)

theorem patrolOnly_withdrawPatrol : PatrolOnly withdrawPatrol :=
  patrolOnly_skipStep.comp (f := fun s => { s with media := { s.media with passedOver := 0 } })
    ⟨fun _ _ => rfl, fun s => { OutsidePatrol.refl s with }⟩

theorem patrolOnly_setMark : PatrolOnly setMark := patrolOnly_patrol fun _ _ => rfl

theorem patrolOnly_markStep : PatrolOnly markStep := by
  refine .byStep (f := fun o s => match o with
    | some { state := .reading, .. } => setMark s
    | some { state := .writingBack _ issued, .. } => if issued then setMark s else withdrawPatrol s
    | _ => s) fun o => ?_
  rcases o with _ | ⟨hostLine, sweep, _ | _ | ⟨d, _ | _⟩, line, mark⟩
  · exact .id
  · exact .id
  · exact patrolOnly_setMark
  · exact patrolOnly_withdrawPatrol
  · exact patrolOnly_setMark

theorem patrolOnly_patrolSeesLock (hostLine : Nat) : PatrolOnly (patrolSeesLock hostLine) := by
  refine .byStep (f := fun o s => match o with
    | some st => if st.hostLine = hostLine then (if st.state = .waiting then withdrawPatrol s else markStep s) else s
    | none => s) fun o => ?_
  cases o with
  | none => exact .id
  | some st =>
    exact .ite (c := fun _ => st.hostLine = hostLine) (fun _ _ => .rfl)
      (.ite (c := fun _ => st.state = .waiting) (fun _ _ => .rfl) patrolOnly_withdrawPatrol patrolOnly_markStep) .id

end Sys2Proof.Machine

/-! ### The examination of the head job (R101, R102) -/

namespace Sys2Proof.Machine

section Examination

variable {s : State} {j : Job} {rest : List Job} {hostLine : Nat}

theorem isLocked_iff : isLocked s hostLine = true ↔ ∃ j ∈ s.queue, j.hostLine = hostLine := by
  simp [isLocked]

theorem hasResidual_iff : hasResidual s hostLine = true ↔ ∃ x ∈ s.channel.residuals, x.hostLine = hostLine := by
  simp [hasResidual]

theorem isExecuting_iff {st : EntryState} : st.isExecuting = true ↔ ∃ ctx, st = .executing ctx := by
  cases st <;> simp [EntryState.isExecuting]

theorem writebackIssued_iff :
    writebackIssued s hostLine = true ↔
      ∃ st d, s.patrol.step = some st ∧ st.state = .writingBack d true ∧ st.hostLine = hostLine := by
  unfold writebackIssued
  rcases s.patrol.step with _ | ⟨line, sweep, _ | _ | ⟨d, _ | _⟩, media, mark⟩
  all_goals simp

theorem runHead_of_empty (hq : s.queue = []) : runHead s = s := by
  simp [runHead, examineHead, hq]

theorem runHead_of_not_queued (hq : s.queue = j :: rest) (hj : j.state ≠ .queued) : runHead s = s := by
  simp [runHead, examineHead, hq, hj]

theorem runHead_of_waiting (hq : s.queue = j :: rest) (hfailed : s.journal.state ≠ .failed)
    (hwaits : headWaits j s = true) : runHead s = s := by
  simp [runHead, examineHead, hq, hfailed, hwaits]

theorem runHead_of_fetch (hq : s.queue = j :: rest) (hj : j.state = .queued) (hfailed : s.journal.state ≠ .failed)
    (hwaits : headWaits j s = false) (hsource : j.source = .fetch) :
    runHead s = { s with queue := { j with state := .fetching } :: rest } := by
  simp [runHead, examineHead, hq, hj, hfailed, hwaits, hsource, updateHead]

theorem examineLine_of_head (hq : s.queue = j :: rest) (hline : j.hostLine = hostLine) :
    examineLine hostLine s = runHead s := by
  simp [examineLine, hq, hline]

theorem examineLine_of_other (hother : ∀ j rest, s.queue = j :: rest → j.hostLine ≠ hostLine) :
    examineLine hostLine s = s := by
  unfold examineLine
  split
  · next j rest hq => exact if_neg (hother j rest hq)
  · rfl

end Examination

/-! ### What a lock and a host write leave of the patrol's step -/

section Step

variable {s : State} {hostLine line : Nat}

theorem step_sweepEnd : (sweepEnd s).patrol.step = s.patrol.step := by
  have trigger : ∀ t, (sweepEndTrigger t).patrol = t.patrol := fun t => by
    unfold sweepEndTrigger
    dsimp only
    split
    · exact alertRequest_patrol t
    · rfl
  simp only [sweepEnd, adoptRegion, trigger, raiseSweepDone, raise_patrol]

theorem step_advanceCursor : (advanceCursor s).patrol.step = s.patrol.step := by
  unfold advanceCursor
  dsimp only
  generalize s.patrol.cursor + _ = cursor
  split
  · exact step_sweepEnd
  · rfl

theorem step_endStep : (endStep s).patrol.step = none := by
  unfold endStep
  split
  · assumption
  · dsimp only
    split
    · exact step_advanceCursor
    · rfl

theorem step_skipStep : (skipStep s).patrol.step = none := by
  unfold skipStep
  split
  · assumption
  · exact step_endStep

/-- Neither a lock nor a host write withdraws a writeback that is issued, and none issues one. -/
theorem writebackIssued_markStep : writebackIssued (markStep s) line = writebackIssued s line := by
  unfold markStep
  split
  · next hst => simp [writebackIssued, setMark, hst]
  · next _ _ _ _ issued _ _ hst =>
    cases issued with
    | true => simp [writebackIssued, setMark, hst]
    | false => simp [writebackIssued, withdrawPatrol, step_skipStep, hst]
  · rfl

theorem writebackIssued_patrolSeesLock : writebackIssued (patrolSeesLock hostLine s) line = writebackIssued s line := by
  unfold patrolSeesLock
  split
  · next st hst =>
    split_ifs with hline hwaiting
    · simp [writebackIssued, withdrawPatrol, step_skipStep, hst]
      obtain ⟨_, _, _, _, _⟩ := st
      obtain rfl := hwaiting
      simp
    · exact writebackIssued_markStep
    · rfl
  · rfl

end Step

end Sys2Proof.Machine

/-! ### RETIRE_LINE (O12) -/

namespace Sys2Proof.Machine

open Sys2Proof.Safety

section RetireLine

variable {s : State} {hostLine : Nat} {o : Origin} {data : Option LineData} {tag : Option Tag}

/-- What an enqueue makes of the queue and the table; the patrol sees the lock, and the rest stays (R99, R40). -/
theorem enqueue_queue : (enqueue hostLine o data tag s).queue = s.queue ++ [newJob s hostLine o data tag] :=
  (patrolSeesLock_outside hostLine).queue

theorem enqueue_journal : (enqueue hostLine o data tag s).journal = s.journal := (patrolSeesLock_outside hostLine).journal

theorem enqueue_channel :
    (enqueue hostLine o data tag s).channel =
      { s.channel with
        table :=
          s.channel.table.map fun e => if e.hostLine = hostLine ∧ e.state = .ready then { e with state := .held } else e } :=
  (patrolSeesLock_outside hostLine).channel

theorem writebackIssued_enqueue {line : Nat} :
    writebackIssued (enqueue hostLine o data tag s) line = writebackIssued s line :=
  writebackIssued_patrolSeesLock

/-- A lock changes no entry that is EXECUTING. -/
theorem any_executing_lock (p : Tag → Bool) (l : List Entry) (line : Nat) :
    (l.map fun e => if e.hostLine = hostLine ∧ e.state = .ready then { e with state := .held } else e).any
        (fun e => e.hostLine == line && e.state.isExecuting && p e.tag) =
      l.any fun e => e.hostLine == line && e.state.isExecuting && p e.tag := by
  rw [List.any_map]
  congr 1
  funext e
  dsimp only [Function.comp]
  split_ifs with h
  · simp [h.2, EntryState.isExecuting]
  · rfl

/-- A job waits after an enqueue where it waited before (R102). -/
theorem headWaits_enqueue (j : Job) : headWaits j (enqueue hostLine o data tag s) = headWaits j s := by
  have hresidual : hasResidual (enqueue hostLine o data tag s) j.hostLine = hasResidual s j.hostLine := by
    simp only [hasResidual, enqueue_channel]
  have hexecuting := any_executing_lock (hostLine := hostLine) (fun t => some t != j.originator) s.channel.table j.hostLine
  simp only [headWaits, enqueue_channel, hresidual, writebackIssued_enqueue, hexecuting]

/-- A job without an originating request waits for any EXECUTING entry of its line (R102). -/
theorem headWaits_of_no_originator {j : Job} (horiginator : j.originator = none) :
    headWaits j s = true ↔
      (∃ e ∈ s.channel.table, e.hostLine = j.hostLine ∧ ∃ ctx, e.state = .executing ctx) ∨
        (∃ x ∈ s.channel.residuals, x.hostLine = j.hostLine) ∨
        ∃ st d, s.patrol.step = some st ∧ st.state = .writingBack d true ∧ st.hostLine = j.hostLine := by
  simp only [headWaits, horiginator, Bool.or_eq_true, List.any_eq_true, Bool.and_eq_true, beq_iff_eq, isExecuting_iff,
    hasResidual_iff, writebackIssued_iff, or_assoc, bne_iff_ne, ne_eq, reduceCtorEq, not_false_eq_true, and_true]

/-- Settles O12, by the rows of R98; the change of the head job to FETCHING comes out of the patrol's reaction to the lock. -/
theorem retireLineRows : Obligations.RetireLineRows := by
  refine ⟨fun line s hfree => ⟨fun hge => ?bad, fun hlt => ⟨fun hstate => ?wrong, fun ho hj =>
    ⟨fun hlocked => ?locked, fun hfreeLine hfull => ?full⟩⟩⟩, ?_⟩
  case bad =>
    refine serve_of_portFree hfree ?_
    rw [answerRetireLine, hostLines_received, if_pos hge]
    rfl
  case wrong =>
    refine serve_of_portFree hfree ?_
    rw [answerRetireLine, hostLines_received, if_neg (Nat.not_le.mpr hlt), received_opState, received_journal,
      if_pos hstate]
    rfl
  case locked =>
    refine serve_of_portFree hfree ?_
    have hyes : isLocked (received 12 (be32 line) s) line.toNat = true := isLocked_iff.mpr hlocked
    rw [answerRetireLine, hostLines_received, if_neg (Nat.not_le.mpr hlt), received_opState, received_journal,
      if_neg (by simp [ho, hj]), if_pos hyes]
    rfl
  case full =>
    refine serve_of_portFree hfree ?_
    have hno : isLocked (received 12 (be32 line) s) line.toNat = false :=
      Bool.eq_false_iff.mpr fun h => absurd (isLocked_iff.mp h) (by simpa using hfreeLine)
    rw [answerRetireLine, hostLines_received, if_neg (Nat.not_le.mpr hlt), received_opState, received_journal,
      if_neg (by simp [ho, hj]), hno, if_neg Bool.false_ne_true, received_queue, if_pos hfull]
    rfl
  intro line s hfree hlt ho hj hfreeLine hlen waits job enqueued
  have hno : isLocked (received 12 (be32 line) s) line.toNat = false :=
    Bool.eq_false_iff.mpr fun h => absurd (isLocked_iff.mp h) (by simpa using hfreeLine)
  -- Row 5: the answer of an enqueue, with the state after the examination still to be found.
  have row : ∀ t, examineLine line.toNat (enqueue line.toNat .command none none (received 12 (be32 line) s)) = t →
      exec (.retireLine line) s = .next (answered 12 .done [1] (settle t)) := fun t ht => by
    refine serve_of_portFree hfree ?_
    rw [answerRetireLine, hostLines_received, if_neg (Nat.not_le.mpr hlt), received_opState, received_journal,
      if_neg (by simp [ho, hj]), hno, if_neg Bool.false_ne_true, received_queue, if_neg (Nat.not_le.mpr hlen), ht]
    rfl
  have hnew : newJob (received 12 (be32 line) s) line.toNat .command none none = job .queued := rfl
  have hqueued : enqueue line.toNat .command none none (received 12 (be32 line) s) = enqueued .queued := rfl
  have hqueue : (enqueued .queued).queue = s.queue ++ [job .queued] := by
    rw [← hqueued, enqueue_queue, hnew, received_queue]
  have hjournal : (enqueued .queued).journal.state ≠ .failed := by
    rw [← hqueued, enqueue_journal]
    exact hj
  have hwaits : headWaits (job .queued) (enqueued .queued) = true ↔ waits := by
    rw [← hqueued, headWaits_enqueue]
    exact headWaits_of_no_originator rfl
  refine ⟨fun hq hnot => row _ ?_, fun hwait => row _ ?_⟩
  · have hhead : (enqueued .queued).queue = job .queued :: [] := by simpa [hq] using hqueue
    rw [hqueued, examineLine_of_head hhead rfl,
      runHead_of_fetch hhead rfl hjournal (Bool.eq_false_iff.mpr (mt hwaits.mp hnot)) rfl]
    have hcomm := (patrolOnly_patrolSeesLock line.toNat).queue_comm
      (s :=
        { received 12 (be32 line) s with
          queue := s.queue ++ [job .queued]
          channel :=
            { s.channel with
              table :=
                s.channel.table.map fun e =>
                  if e.hostLine = line.toNat ∧ e.state = .ready then { e with state := .held } else e } })
      (s.queue ++ [job .fetching])
    have hsingle : { job .queued with state := .fetching } :: [] = s.queue ++ [job .fetching] := by
      rw [hq]
      rfl
    rw [hsingle]
    exact hcomm.symm
  · rw [hqueued]
    cases hq : s.queue with
    | nil =>
      have hhead : (enqueued .queued).queue = job .queued :: [] := by simpa [hq] using hqueue
      rw [examineLine_of_head hhead rfl,
        runHead_of_waiting hhead hjournal (hwaits.mpr (hwait.resolve_left (fun h => h hq)))]
    | cons j rest =>
      refine examineLine_of_other fun j' rest' hq' => ?_
      rw [hqueue, hq, List.cons_append] at hq'
      obtain rfl : j = j' := (List.cons.inj hq').1
      exact hfreeLine j (by rw [hq]; exact List.mem_cons_self)

end RetireLine

end Sys2Proof.Machine

/-! ### RESTART_SWEEP, QUIESCE, RESUME and PWARN (O13 to O15) -/

namespace Sys2Proof.Machine

open Sys2Proof.Safety

section Sweep

variable {s : State}

theorem raise_pace (kind hostLine spare oldSpare values) :
    (raise kind hostLine spare oldSpare values s).notices.pace = s.notices.pace := by
  have asked : ∀ t : State, (alertRequest t).notices.pace = t.notices.pace := fun t => by
    unfold alertRequest
    split <;> rfl
  unfold raise
  dsimp only
  split
  · split
    · exact asked _
    · rfl
  · rfl

/-- An alert request takes no notice of the patrol. -/
theorem alertRequest_patrolTo (p : Patrol) : alertRequest { s with patrol := p } = { alertRequest s with patrol := p } := by
  unfold alertRequest
  dsimp only
  split <;> rfl

theorem nextParity_eq (before after : PatrolMode) (parity : Bool) :
    nextParity before after parity = (decide (before = .split) && decide (after = .split) && !parity) := by
  cases before <;> cases after <;> rfl

theorem firstCursor_eq (start : Nat) (before after : PatrolMode) (parity : Bool) :
    firstCursor start after (nextParity before after parity) =
      start + if nextParity before after parity then 1 else 0 := by
  cases before <;> cases after <;> rfl

/-- The end of a sweep by its five parts (R167). -/
theorem sweepEnd_eq :
    let told := raiseSweepDone (s.patrol.sweep + 1) s.patrol.tallies
      { s with patrol := { s.patrol with sweep := s.patrol.sweep + 1 } }
    let asked := if halfPeriod s ≤ s.notices.pace ∧ told.notices.queue ≠ [] then alertRequest told else told
    let parity := nextParity s.patrol.liveMode s.settings.patrolMode s.patrol.parity
    sweepEnd s =
      { asked with
        notices := { asked.notices with pace := 0 }
        patrol :=
          { s.patrol with
            sweep := s.patrol.sweep + 1
            tallies := .zero
            liveStart := s.settings.patrolStart
            liveEnd := s.settings.patrolEnd
            liveMode := s.settings.patrolMode
            parity := parity
            cursor := firstCursor s.settings.patrolStart s.settings.patrolMode parity } } := by
  intro told asked parity
  have hpace : told.notices.pace = s.notices.pace := raise_pace ..
  have hpatrol : told.patrol = { s.patrol with sweep := s.patrol.sweep + 1 } := raise_patrol ..
  have hsettings : told.settings = s.settings := raise_settings ..
  have hasked : asked.settings = s.settings := by
    dsimp only [asked]
    split
    · exact (alertRequest_settings told).trans hsettings
    · exact hsettings
  have htrigger : sweepEndTrigger { told with patrol := { told.patrol with tallies := .zero } } =
      { asked with notices := { asked.notices with pace := 0 }, patrol := { told.patrol with tallies := .zero } } := by
    have hcondition : halfPeriod { told with patrol := { told.patrol with tallies := .zero } } = halfPeriod s := by
      simp only [halfPeriod, hsettings]
    by_cases hc : halfPeriod s ≤ s.notices.pace ∧ told.notices.queue ≠ []
    · simp only [sweepEndTrigger, hcondition, hpace, asked, if_pos hc, alertRequest_patrolTo]
    · simp only [sweepEndTrigger, hcondition, hpace, asked, if_neg hc]
  show adoptRegion (sweepEndTrigger { told with patrol := { told.patrol with tallies := .zero } }) = _
  rw [htrigger, adoptRegion, hpatrol]
  simp only [hasked]
  rfl

/-- Settles O13. -/
theorem restartSweepEndsTheSweep : Obligations.RestartSweepEndsTheSweep := by
  intro s hfree
  refine ⟨fun hstate => ?refused, fun hstate => ?ends⟩
  case refused =>
    refine serve_of_portFree hfree ?_
    have hno : (received 13 [] s).opState.serving = false := by
      rcases hstate with h | h | h
      all_goals simp [h, OpState.serving]
    rw [answerRestartSweep, hno]
    rfl
  case ends =>
    intro p told asked parity
    have hyes : (received 13 [] s).opState.serving = true := by
      rcases hstate with h | h | h
      all_goals simp [h, OpState.serving]
    have hend := sweepEnd_eq (s := received 13 [] s)
    refine serve_of_portFree hfree ?_
    rw [answerRestartSweep, hyes, if_pos rfl, hend]
    simp only [firstCursor_eq]
    simp only [nextParity_eq]
    rfl

end Sweep

section Quiesce

variable {s : State}

/-- PWARN's rise is the entry to QUIESCING in READY with the pin deasserted and RESETN high, and else its level alone. -/
theorem pwarnRises_of_level (h : s.opState ≠ .ready ∨ s.pins.pwarn = true ∨ s.pins.resetLow = true) :
    pwarnRises s = { s with pins := { s.pins with pwarn := true } } := by
  refine if_neg fun ⟨hlevel, hup, hready⟩ => ?_
  rcases h with h | h | h
  · exact h hready
  · simp [hlevel] at h
  · simp [hup] at h

/-- Settles O14, by the classes of operating states. -/
theorem quiesceResumeAndPwarnLevel : Obligations.QuiesceResumeAndPwarnLevel := by
  refine ⟨fun s hfree => ⟨fun hstate => ?quiesced, fun hstate => ?resumed, fun hstate => ⟨?quiesceRefused, ?resumeRefused⟩⟩,
    fun s => ⟨rfl, fun hlevel => congrArg Host.Outcome.next (pwarnRises_of_level (s := clearOut s) hlevel)⟩⟩
  case quiesced =>
    refine serve_of_portFree hfree ?_
    rw [answerQuiesce, received_opState]
    rcases hstate with h | h
    all_goals
      rw [h]
      rfl
  case resumed =>
    refine serve_of_portFree hfree ?_
    rw [answerResume, received_opState]
    rcases hstate with h | h | h
    all_goals
      rw [h]
      rfl
  case quiesceRefused =>
    refine serve_of_portFree hfree ?_
    rw [answerQuiesce, received_opState]
    rcases hstate with h | h | h
    all_goals
      rw [h]
      rfl
  case resumeRefused =>
    refine serve_of_portFree hfree ?_
    rw [answerResume, received_opState]
    rcases hstate with h | h | h
    all_goals
      rw [h]
      rfl

/-- The drain check of a state in QUIESCING (R154). -/
theorem drainCheck_of_quiescing (h : s.opState = .quiescing) :
    drainCheck s =
      if s.queue = [] ∧ (s.journal.state = .idle ∨ s.journal.state = .failed) then
        raiseQuietReached { s with opState := .quiet }
      else s := by
  simp [drainCheck, h]

theorem drainCheck_of_not_quiescing (h : s.opState ≠ .quiescing) : drainCheck s = s := if_neg fun hq => h hq.1

/-- The state after the entry to QUIESCING has the drain check's operating state, and jobs, journal, map, list, settings, pins
and port as they were. -/
theorem enterQuiescing_spec (s : State) :
    let drained := s.queue = [] ∧ (s.journal.state = .idle ∨ s.journal.state = .failed)
    let seen := patrolSeesQuiesce { s with opState := .quiescing }
    let t := settle (if drained then raise .quietReached none none none [] { seen with opState := .quiet } else seen)
    enterQuiescing s = t ∧ t.opState = (if drained then .quiet else .quiescing) ∧ t.queue = s.queue ∧
      t.journal = s.journal ∧ t.lineMap = s.lineMap ∧ t.suspects = s.suspects ∧ t.settings = s.settings ∧
      t.pins = s.pins ∧ t.port = s.port := by
  intro drained seen t
  have outside : OutsidePatrol { s with opState := .quiescing } seen := patrolSeesQuiesce_outside
  obtain ⟨-, hmap, -, hsuspects, hqueue, hjournal, hop, -, hport, hsettings, -, hpins, -, -⟩ := outside
  have hdrain : drainCheck seen =
      if drained then raise .quietReached none none none [] { seen with opState := .quiet } else seen := by
    rw [drainCheck_of_quiescing hop, hqueue, hjournal]
    rfl
  have hchecked : drainCheck seen = drainCheck seen ∧ (drainCheck seen).opState = (if drained then .quiet else .quiescing) ∧
      (drainCheck seen).queue = s.queue ∧ (drainCheck seen).journal = s.journal ∧ (drainCheck seen).lineMap = s.lineMap ∧
      (drainCheck seen).suspects = s.suspects ∧ (drainCheck seen).settings = s.settings ∧
      (drainCheck seen).pins = s.pins ∧ (drainCheck seen).port = s.port := by
    rw [hdrain]
    split
    · simp [hqueue, hjournal, hmap, hsuspects, hsettings, hpins, hport]
    · exact ⟨rfl, hop, hqueue, hjournal, hmap, hsuspects, hsettings, hpins, hport⟩
  obtain ⟨-, hop', hqueue', hjournal', hmap', hsuspects', hsettings', hpins', hport'⟩ := hchecked
  have hnot : (drainCheck seen).opState ≠ .ready := by
    rw [hop']
    split <;> nofun
  have quiet := settle_quiet hnot
  have grants := settle_outside (s := drainCheck seen)
  have ht : t = settle (drainCheck seen) := by rw [hdrain]
  rw [ht]
  exact ⟨rfl, quiet.opState.trans hop', quiet.queue.trans hqueue', grants.journal.trans hjournal',
    quiet.lineMap.trans hmap', quiet.suspects.trans hsuspects', grants.settings.trans hsettings',
    grants.pins.trans hpins', grants.port.trans hport'⟩

/-- Settles O15: both entries are `enterQuiescing`. -/
theorem entryToQuiescing : Obligations.EntryToQuiescing := by
  intro s hready hup drained entered quiesced
  refine ⟨fun hfree => ?command, fun hlevel => ?pin⟩
  case command =>
    obtain ⟨heq, hop, hqueue, hjournal, hmap, hsuspects, hsettings, -, -⟩ := enterQuiescing_spec (received 14 [] s)
    refine ⟨serve_of_portFree hfree ?_, hop, hqueue, hjournal, hmap, hsuspects, hsettings⟩
    rw [answerQuiesce, received_opState, if_pos hready, heq]
    rfl
  case pin =>
    obtain ⟨heq, hop, hqueue, hjournal, hmap, hsuspects, hsettings, hpins, hport⟩ :=
      enterQuiescing_spec { s with pins := { s.pins with pwarn := true }, out := Outputs.none }
    have hrises : pwarnRises (clearOut s) = enterQuiescing { s with pins := { s.pins with pwarn := true }, out := Outputs.none } :=
      if_pos ⟨hlevel, hup, hready⟩
    refine ⟨congrArg Host.Outcome.next (hrises.trans heq), ⟨hop, hqueue, hjournal, hmap, hsuspects, hsettings⟩, ?_, hport⟩
    exact congrArg Pins.pwarn hpins

end Quiesce

end Sys2Proof.Machine

/-! ### The order of grants (O37) -/

namespace Sys2Proof.Machine

section Grants

variable {s : State} {id : SlotId} {w : Winner} {n : Nat}

theorem lowestFreeSlot_eq_none_iff : lowestFreeSlot s = none ↔ ∀ id : SlotId, s.media.slots[id.val] ≠ .free := by
  simp [lowestFreeSlot, List.find?_eq_none]

/-- The FREE slot that a grant takes has no FREE slot below it (R55). -/
theorem free_of_lowestFreeSlot (h : lowestFreeSlot s = some id) :
    s.media.slots[id.val] = .free ∧ ∀ j : SlotId, j < id → s.media.slots[j.val] ≠ .free := by
  obtain ⟨hfree, older, younger, hsplit, hbefore⟩ := List.find?_eq_some_iff_append.mp h
  refine ⟨by simpa using hfree, fun j hj => ?_⟩
  have hmem : j ∈ older := by
    have hid : older.length = id.val := by
      have h := congrArg (·[older.length]?) hsplit
      simp only [List.getElem?_append_right (Nat.le_refl _), Nat.sub_self, List.getElem?_cons_zero] at h
      obtain ⟨hlt, heq⟩ := List.getElem?_eq_some_iff.mp h
      simpa using congrArg Fin.val heq
    have h := congrArg (·[j.val]?) hsplit
    have hlt : j.val < older.length := hid ▸ hj
    simp only [List.getElem?_append_left hlt] at h
    refine List.mem_of_getElem? (i := j.val) (h ▸ ?_)
    rw [List.getElem?_eq_getElem (by simp)]
    simp
  simpa using hbefore j hmem

theorem grantLoop_of_grant (hid : lowestFreeSlot s = some id) (hw : winner s = some w) :
    grantLoop (n + 1) s = grantLoop n (grant id w s) := by
  simp only [grantLoop, hid, hw]

theorem grantLoop_of_noClaim (hw : winner s = none) : grantLoop n s = s := by
  cases n with
  | zero => rfl
  | succ n =>
    simp only [grantLoop, hw]
    split
    · next h => cases h
    · rfl

theorem grantLoop_of_busy (h : lowestFreeSlot s = none) : grantLoop n s = s := by
  cases n with
  | zero => rfl
  | succ n => simp only [grantLoop, h]

theorem winner_of_journalClaim {r : MediaRequest} (h : journalClaim s = some r) : winner s = some (.journal r) := by
  simp only [winner, h]

theorem winner_of_retirementClaim {r : MediaRequest} (hj : journalClaim s = none) (h : retirementClaim s = some r) :
    winner s = some (.retirement r) := by
  simp only [winner, hj, h]

theorem winner_of_no_claim (hj : journalClaim s = none) (hr : retirementClaim s = none) :
    winner s =
      if patrolClaims s ∧ 16 ≤ s.media.passedOver then some .patrol
      else
        match hostClaim s with
        | some e => some (.host e)
        | none => if patrolClaims s then some .patrol else none := by
  simp only [winner, hj, hr] <;> rfl

/-- An operation of an owner is in flight where a slot is ISSUED for it (R54). -/
theorem inFlight_iff {o : Owner} :
    inFlight s o = true ↔ ∃ (id : SlotId) (r : SlotRecord), s.media.slots[id.val] = .issued r ∧ r.owner = o := by
  simp only [inFlight, List.any_eq_true, Vector.mem_toList_iff, Vector.mem_iff_getElem]
  constructor
  · rintro ⟨slot, ⟨i, hi, rfl⟩, hslot⟩
    split at hslot
    · next r hr => exact ⟨⟨i, hi⟩, r, hr, by simpa using hslot⟩
    · cases hslot
  · rintro ⟨id, r, hslot, howner⟩
    exact ⟨_, ⟨id.val, id.isLt, rfl⟩, by simp [hslot, howner]⟩

/-- An operation issued in a slot is in flight for its owner. -/
theorem inFlight_issue (r : MediaRequest) (o : Owner) : inFlight (issue id r o s) o = true := by
  cases r
  all_goals exact inFlight_iff.mpr ⟨id, _, Vector.getElem_set_self id.isLt, rfl⟩

/-- Settles O37. -/
theorem grantsFollowTheOrder : Obligations.GrantsFollowTheOrder := by
  intro s
  refine ⟨fun r => winner_of_journalClaim, fun hj r => winner_of_retirementClaim hj, fun hj hr => ?order,
    fun id => free_of_lowestFreeSlot, settle_busy, settle_noClaim, fun id w hid hw => ?granted, fun id r => ?issued⟩
  case order =>
    intro claims
    have hclaim : hostClaim s = s.channel.table.find? claims := rfl
    refine ⟨fun hp hc => ?_, fun hnot => ⟨fun older e younger htable he hbefore => ?_, fun hnone => ?_⟩⟩
    · rw [winner_of_no_claim hj hr, if_pos ⟨hp, hc⟩]
    all_goals
      have hskip : ¬ (patrolClaims s = true ∧ 16 ≤ s.media.passedOver) := by
        rcases hnot with h | h
        · simp [h]
        · simp [h]
      rw [winner_of_no_claim hj hr, if_neg hskip, hclaim]
    · have hfound : s.channel.table.find? claims = some e :=
        List.find?_eq_some_iff_append.mpr ⟨he, older, younger, htable, fun x hx => by simp [hbefore x hx]⟩
      rw [hfound]
    · have hfound : s.channel.table.find? claims = none :=
        List.find?_eq_none.mpr fun x hx => by simp [hnone x hx]
      rw [hfound]
  case granted => exact ⟨grantLoop_of_grant hid hw, fun n => grantLoop_of_grant hid hw⟩
  case issued => cases r <;> exact ⟨rfl, rfl⟩

end Grants

end Sys2Proof.Machine

/-! ### Resets (O16 to O19) -/

namespace Sys2Proof.Machine

open Sys2Proof.Safety

section Reset

variable {s : State}

/-- After the first grant of the rebuild no claim waits: the journal's operation is in flight, and there is no other. -/
theorem settle_of_journal_alone {r : MediaRequest} (hfree : lowestFreeSlot s = some 0) (hclaim : journalClaim s = some r)
    (hq : s.queue = []) (hstep : s.patrol.step = none) (htable : s.channel.table = []) :
    settle s = issue 0 r .journal s := by
  have hwon : winner (issue 0 r .journal s) = none := by
    have hjournal : journalClaim (issue 0 r .journal s) = none := by
      rw [journalClaim, inFlight_issue, if_pos rfl]
    have hrest : (issue 0 r .journal s).queue = [] ∧ (issue 0 r .journal s).patrol.step = none ∧
        (issue 0 r .journal s).channel.table = [] := by
      cases r <;> exact ⟨hq, hstep, htable⟩
    obtain ⟨hq', hstep', htable'⟩ := hrest
    have hretirement : retirementClaim (issue 0 r .journal s) = none := by rw [retirementClaim, hq']
    have hpatrol : patrolClaims (issue 0 r .journal s) = false := by rw [patrolClaims, hstep']
    have hhost : hostClaim (issue 0 r .journal s) = none := by rw [hostClaim, htable']; rfl
    rw [winner_of_no_claim hjournal hretirement, hpatrol, hhost]
    rfl
  rw [settle, grantLoop_of_grant hfree (winner_of_journalClaim hclaim)]
  exact grantLoop_of_noClaim hwon

theorem exec_powerUpReset (straps : BitVec 2) (s : State) :
    exec (.powerUpReset straps) s =
      .next
        { powerUpValues straps s with
          journal := { Journal.empty with work := .rebuild .headerA, presented := some .work }
          media :=
            { slots := (Vector.replicate 8 Slot.free).set 0 (.issued { op := .read, line := 0, owner := .journal, timer := 0 })
              passedOver := 0 }
          out := { Outputs.none with mediaOps := [.read 0 0] } } := by
  have hsettled := settle_of_journal_alone (s := beginRebuild (powerUpValues straps s)) (r := .read 0) (by rfl) (by rfl)
    rfl rfl rfl
  exact congrArg Host.Outcome.next hsettled

/-- Settles O16. -/
theorem powerUpResetValues : Obligations.PowerUpResetValues := by
  refine ⟨fun straps s => ?_, fun s hlevel hpending => ?_⟩
  · rw [exec_powerUpReset]
    simp only [powerUpValues, Patrol.initial, Settings.default, hostLinesOf_eq, mediaLinesOf_eq]
    rfl
  · rw [exec_powerUpReset]
    simp only [powerUpValues, hlevel, hpending]
    rfl

end Reset

end Sys2Proof.Machine

namespace Sys2Proof.Machine

open Sys2Proof.Safety

section Reset

variable {s : State}

/-- Settles O17: the laws of the map, the pool and the generation hold where the rebuild begins, and the first grant keeps them. -/
theorem lawsHoldAtReset : Obligations.LawsHoldAtReset := by
  have hreset : settle (beginRebuild (powerUpValues 0 State.reset)) = State.reset :=
    Host.Outcome.next.inj (powerUpResetValues.2 State.reset rfl rfl)
  have laws : Laws 0 State.reset := by
    have begun : Laws 0 (beginRebuild (powerUpValues 0 State.reset)) := laws_beginRebuild rfl rfl rfl rfl
    rw [← hreset]
    exact (kept_laws.settle (Kept.good begun)).prop
  obtain ⟨⟨hmap, hreserved, hkind, hdiscard⟩, hgeneration, -⟩ := laws
  exact ⟨⟨Nat.zero_le _, nofun⟩, ⟨Nat.zero_le _, List.nodup_nil⟩, ⟨Nat.zero_le _, List.nodup_nil⟩, ⟨List.nodup_nil, .nil⟩,
    Nat.zero_le _, settingsLaw_powerUpValues 0 State.reset, ⟨hmap, hreserved, hkind, hdiscard, hgeneration.1⟩, hgeneration⟩

/-- While RESETN is low an event has no effect. -/
theorem whenUp_of_resetLow (f : State → State) (hlow : s.pins.resetLow = true) : whenUp f s = clearOut s := by
  simp [whenUp, hlow]

/-- Settles O18: every command and event but the reset and the pins' is taken by `whenUp`. -/
theorem resetnLowStopsThePart : Obligations.ResetnLowStopsThePart := by
  refine ⟨fun s => rfl, fun c s hlow hwf hup hreset hasserted hdeasserted => ?_⟩
  cases c
  case powerUpReset straps => exact absurd rfl (hup straps)
  case resetnAsserted => exact absurd rfl hreset
  case pwarnAsserted => exact absurd rfl hasserted
  case pwarnDeasserted => exact absurd rfl hdeasserted
  case unknownCommandFrame code length operands =>
    exact (if_pos hwf).trans (congrArg Host.Outcome.next (whenUp_of_resetLow _ hlow))
  all_goals exact congrArg Host.Outcome.next (whenUp_of_resetLow _ hlow)

theorem exec_restart_of_resetHigh (hup : s.pins.resetLow = false) (hrestart : restartTaken s = false) :
    exec .restart s =
      .next
        { s with
          port := { command := afterRestartFrame s.port.command, selection := .frame (frameOf 16 []) }
          out := { Outputs.none with admission := some .accepted } } := by
  have hnot : restartTaken (clearOut s) = false := hrestart
  have htaken := whenUp_of_resetHigh takeRestart hup
  rw [takeRestart, hnot, if_neg Bool.false_ne_true] at htaken
  exact congrArg Host.Outcome.next htaken

/-- Settles O19: the frame by the command state it finds, and the effect at the end of its selection. -/
theorem restartFrameAndEffect : Obligations.RestartFrameAndEffect := by
  refine ⟨fun s hup hrestart => ⟨fun r hr => ?held, fun hr => ?none, fun code hr => ?pending⟩,
    fun s operands hup hselection => ?effect⟩
  case held =>
    rw [exec_restart_of_resetHigh hup hrestart, hr]
    rfl
  case none =>
    rw [exec_restart_of_resetHigh hup hrestart, hr]
    rfl
  case pending =>
    rw [exec_restart_of_resetHigh hup hrestart, hr]
    rfl
  case effect =>
    have htaken : restartTaken (clearOut s) = true := by
      show restartTaken s = true
      rw [restartTaken, hselection]
      rfl
    have heffect := whenUp_of_resetHigh restartTakesEffect hup
    rw [restartTakesEffect, htaken, if_pos rfl] at heffect
    exact congrArg Host.Outcome.next heffect

end Reset

end Sys2Proof.Machine

/-! ### Pending commands, frames with no command of their own, and POLL (O20, O23, O24) -/

namespace Sys2Proof.Machine

open Sys2Proof.Safety

section Port

variable {s : State} {code : Byte} {operands : List Byte} {answer : State → Reply × State}

/-- At a free port a command that goes PENDING leaves what its beginning leaves. -/
theorem serve_pending_of_portFree {t : State} (hfree : PortFree s)
    (hanswer : answer (received code operands s) = (.pending, t)) :
    serve code operands answer s = .next (accepted (.pending code) t) := by
  obtain ⟨hup, hrestart, hidle⟩ := hfree
  have htaken := takeFrame_of_free (s := clearOut s) (answer := answer) (frameOf code operands) hrestart hidle
  have hreceived : receive (frameOf code operands) (clearOut s) = received code operands s := rfl
  rw [serve, whenUp_of_resetHigh _ hup, htaken, hreceived, hanswer]
  rfl

theorem presentNext_of_presented (h : s.journal.presented ≠ none) : presentNext s = s := by
  cases hp : s.journal.presented with
  | none => exact absurd hp h
  | some p => simp only [presentNext, hp]

theorem presentNext_of_service (hp : s.journal.presented = none) (hs : s.journal.service ≠ none) :
    presentNext s = { s with journal := { s.journal with presented := some .service } } := by
  simp [presentNext, hp, Option.isSome_iff_ne_none.mpr hs]

theorem presentNext_of_work (hp : s.journal.presented = none) (hs : s.journal.service = none)
    (hw : workRequest s ≠ none) :
    presentNext s = { s with journal := { s.journal with presented := some .work } } := by
  simp [presentNext, hp, hs, Option.isSome_iff_ne_none.mpr hw]

theorem presentNext_of_nothing (hs : s.journal.service = none) (hw : workRequest s = none) : presentNext s = s := by
  cases hp : s.journal.presented <;> simp [presentNext, hp, hs, hw]

theorem halfOf_of_gt {half : Byte} (h : 1 < half.toNat) : halfOf half = none := by
  unfold halfOf
  split
  · omega
  · omega
  · rfl

/-- Settles O20. -/
theorem pendingCommandsBegin : Obligations.PendingCommandsBegin := by
  refine ⟨fun s hfree => ⟨fun hstate => ?wrong, fun hstate hp hs => ?begins⟩,
    fun half slot s hfree => ⟨fun hbad => ?bad, fun h hhalf hslot => ⟨fun hp => ?presented, fun hp => ?waits⟩⟩⟩
  case wrong =>
    refine serve_of_portFree hfree ?_
    rw [answerInitializeJournal, received_opState, if_neg hstate]
    rfl
  case begins =>
    refine serve_pending_of_portFree hfree ?_
    rw [answerInitializeJournal, received_opState, if_pos hstate]
    exact congrArg (fun t => (Reply.pending, settle t)) (presentNext_of_work hp hs (Option.some_ne_none _))
  case bad =>
    refine serve_of_portFree hfree ?_
    rw [answerReadJournalSlot]
    cases hh : halfOf half with
    | none => rfl
    | some h =>
      have hlarge : ¬ slot.toNat < 2045 := fun hlt =>
        hbad.elim (fun hgt => by simp [halfOf_of_gt hgt] at hh) fun hge => absurd hlt (Nat.not_lt.mpr hge)
      dsimp only
      rw [if_neg hlarge]
      rfl
  case presented =>
    refine serve_pending_of_portFree hfree ?_
    have hh : halfOf half = some h := by
      rw [hhalf]
      cases h <;> rfl
    rw [answerReadJournalSlot, hh]
    dsimp only
    rw [if_pos hslot]
    exact congrArg (fun t => (Reply.pending, settle t)) (presentNext_of_service hp (Option.some_ne_none _))
  case waits =>
    refine serve_pending_of_portFree hfree ?_
    have hh : halfOf half = some h := by
      rw [hhalf]
      cases h <;> rfl
    rw [answerReadJournalSlot, hh]
    dsimp only
    rw [if_pos hslot]
    exact congrArg (fun t => (Reply.pending, settle t)) (presentNext_of_presented hp)

/-- A frame with no command of its own at a free port is answered with its fault (R190). -/
theorem exec_unknownCommandFrame_of_portFree {length : Byte} {status : ServiceStatus} (hfree : PortFree s)
    (hcode : code ≠ 0) (hfault : frameFault code length = some status)
    (hlength : operands.length = if length.toNat > 16 then 0 else length.toNat) :
    exec (.unknownCommandFrame code length operands) s =
      .next
        { s with
          port :=
            { command := .answered { status := status, code := code, results := [] }
              selection := .frame { code := code, length := length, operands := operands } }
          out := { Outputs.none with admission := some .accepted } } := by
  have hunknown : isUnknownFrame code length operands = true := by
    simpa [isUnknownFrame, hfault, hlength] using hcode
  obtain ⟨hup, hrestart, hidle⟩ := hfree
  refine (if_pos hunknown).trans ?_
  rw [whenUp_of_resetHigh _ hup, takeFrame_of_free (s := clearOut s) _ hrestart hidle, hfault]
  rfl

theorem commandLength_of_gt (h : 18 < code.toNat) : commandLength code = none := by
  unfold commandLength
  split
  case h_19 => rfl
  all_goals omega

theorem frameFault_of_long {length : Byte} (h : 16 < length.toNat) : frameFault code length = some .badLength :=
  if_pos h

theorem frameFault_of_unknown {length : Byte} (h : length.toNat ≤ 16) (hcode : commandLength code = none) :
    frameFault code length = some .badCommand := by
  rw [frameFault, if_neg (Nat.not_lt.mpr h), hcode]

theorem frameFault_of_length {length : Byte} {n : Nat} (h : length.toNat ≤ 16) (hcode : commandLength code = some n)
    (hn : n ≠ length.toNat) : frameFault code length = some .badLength := by
  rw [frameFault, if_neg (Nat.not_lt.mpr h), hcode]
  exact if_neg hn

/-- A frame at a PENDING port is refused BUSY (R190). -/
theorem takeFrame_of_pending {c : Byte} (f : Frame) (hrestart : restartTaken s = false)
    (hpending : s.port.command = .pending c) : takeFrame f answer s = emitAdmission .busy (receive f s) := by
  simp [takeFrame, hrestart, hpending]

theorem serve_of_busy {c : Byte} (hup : s.pins.resetLow = false) (hrestart : restartTaken s = false)
    (hpending : s.port.command = .pending c) :
    serve code operands answer s =
      .next
        { s with
          port := { s.port with selection := .frame (frameOf code operands) }
          out := { Outputs.none with admission := some .busy } } := by
  rw [serve, whenUp_of_resetHigh _ hup, takeFrame_of_pending (s := clearOut s) _ hrestart hpending]
  rfl

/-- Settles O23: the frames of the row UNKNOWN_COMMAND_FRAME by their fault, and every frame at a PENDING port. -/
theorem framesAreJudged : Obligations.FramesAreJudged := by
  refine ⟨fun code length operands s => ⟨fun hfree hcode => ⟨fun hlong hnone => ?long, fun hle hlen =>
    ⟨fun hgt => ?unknown, fun n hn hne => ?length⟩⟩, fun hwf => ?illFormed⟩, fun c f code s hf hwf hup hrestart hpending => ?busy⟩
  case long =>
    exact exec_unknownCommandFrame_of_portFree hfree hcode (frameFault_of_long hlong) (by rw [if_pos hlong, hnone]; rfl)
  case unknown =>
    exact exec_unknownCommandFrame_of_portFree hfree hcode (frameFault_of_unknown hle (commandLength_of_gt hgt))
      (by rw [if_neg (Nat.not_lt.mpr hle), hlen])
  case length =>
    exact exec_unknownCommandFrame_of_portFree hfree hcode (frameFault_of_length hle hn hne)
      (by rw [if_neg (Nat.not_lt.mpr hle), hlen])
  case illFormed => exact if_neg (Bool.eq_false_iff.mp hwf)
  case busy =>
    cases c
    case unknownCommandFrame c length operands =>
      obtain rfl := Option.some_inj.mp hf
      refine (if_pos hwf).trans ?_
      rw [whenUp_of_resetHigh _ hup, takeFrame_of_pending (s := clearOut s) _ hrestart hpending]
      rfl
    -- A command's own frame, or no frame at all.
    all_goals first
      | (obtain rfl := Option.some_inj.mp hf; exact serve_of_busy hup hrestart hpending)
      | cases hf

theorem exec_poll_of_resetHigh (hup : s.pins.resetLow = false) (hrestart : restartTaken s = false) :
    exec .poll s =
      .next
        { s with
          port :=
            { s.port with selection := .poll (pollResponse s.port.command).1 (pollResponse s.port.command).2 }
          out := { Outputs.none with pollResponse := some (pollResponse s.port.command).1 } } := by
  have hnot : restartTaken (clearOut s) = false := hrestart
  have hpolled := whenUp_of_resetHigh takePoll hup
  rw [takePoll, hnot, if_neg Bool.false_ne_true] at hpolled
  exact congrArg Host.Outcome.next hpolled

/-- Settles O24, by the command state that a POLL finds and by what its selection returned. -/
theorem pollReturnsAndReleases : Obligations.PollReturnsAndReleases := by
  refine ⟨fun s hup hrestart => ⟨fun h => ?none, fun code h => ?pending, fun r h => ?held⟩,
    fun s r hup => ⟨fun hselection => ?released, fun hselection => ?kept⟩⟩
  case none =>
    rw [exec_poll_of_resetHigh hup hrestart, h]
    rfl
  case pending =>
    rw [exec_poll_of_resetHigh hup hrestart, h]
    rfl
  case held =>
    rw [exec_poll_of_resetHigh hup hrestart, h]
    rfl
  case released =>
    have hsel : (clearOut s).port.selection = .poll r true := hselection
    have hreleased := whenUp_of_resetHigh releaseResponse hup
    rw [releaseResponse, hsel] at hreleased
    exact congrArg Host.Outcome.next hreleased
  case kept =>
    have hsel : (clearOut s).port.selection = .poll r false := hselection
    have hreleased := whenUp_of_resetHigh releaseResponse hup
    rw [releaseResponse, hsel] at hreleased
    exact congrArg Host.Outcome.next hreleased

end Port

end Sys2Proof.Machine

/-! ### The Request Table (R36 to R41) -/

namespace Sys2Proof.Machine

open Sys2Proof.Safety

section Table

variable {s : State} {hostLine : Nat} {e : Entry} {older younger : List Entry} {st : EntryState}

/-- With no two elements of one key, the element of a key is found. -/
theorem find?_of_nodup_map {α β : Type} [DecidableEq β] {f : α → β} {l : List α} {a : α} (hnodup : (l.map f).Nodup)
    (ha : a ∈ l) : l.find? (fun x => f x == f a) = some a := by
  induction l with
  | nil => simp at ha
  | cons x xs ih =>
    obtain ⟨hx, hxs⟩ := List.nodup_cons.mp hnodup
    rcases List.mem_cons.mp ha with rfl | ha
    · simp
    · have hne : f x ≠ f a := fun heq => hx (heq ▸ List.mem_map_of_mem ha)
      simpa [List.find?_cons, hne] using ih hxs ha

theorem entryOf_of_mem (hnodup : (s.channel.table.map Entry.tag).Nodup) (he : e ∈ s.channel.table) :
    entryOf s e.tag = some e :=
  find?_of_nodup_map hnodup he

/-- A change of the entry of a tag is a change at its place. -/
theorem map_at_tag {f : Entry → Entry} (hnodup : ((older ++ e :: younger).map Entry.tag).Nodup) :
    (older ++ e :: younger).map (fun x => if x.tag = e.tag then f x else x) = older ++ f e :: younger := by
  rw [List.map_append, List.map_cons] at hnodup
  obtain ⟨-, hyounger, hdisjoint⟩ := List.nodup_append.mp hnodup
  have hold : ∀ x ∈ older, x.tag ≠ e.tag := fun x hx =>
    hdisjoint _ (List.mem_map_of_mem hx) _ List.mem_cons_self
  have hyoung : ∀ x ∈ younger, x.tag ≠ e.tag := fun x hx heq =>
    (List.nodup_cons.mp hyounger).1 (heq ▸ List.mem_map_of_mem hx)
  rw [List.map_append, List.map_cons, if_pos rfl]
  congr 1
  · exact (List.map_congr_left fun x hx => if_neg (hold x hx)).trans (List.map_id _)
  · exact congrArg _ ((List.map_congr_left fun x hx => if_neg (hyoung x hx)).trans (List.map_id _))

theorem setEntryState_at (htable : s.channel.table = older ++ e :: younger)
    (hnodup : (s.channel.table.map Entry.tag).Nodup) :
    setEntryState e.tag st s =
      { s with channel := { s.channel with table := older ++ { e with state := st } :: younger } } := by
  have hmap := map_at_tag (f := fun e => { e with state := st }) (htable ▸ hnodup)
  simp only [setEntryState, updateEntry, htable, hmap]

/-- The oldest entry of a line is the one with none of its line before it. -/
theorem find?_oldest (hbefore : ∀ x ∈ older, x.hostLine ≠ hostLine) (hline : e.hostLine = hostLine) :
    (older ++ e :: younger).find? (·.hostLine == hostLine) = some e :=
  List.find?_eq_some_iff_append.mpr
    ⟨by simp [hline], older, younger, rfl, fun x hx => by simpa using hbefore x hx⟩

theorem reexamine_of_line_free (h : ∀ x ∈ s.channel.table, x.hostLine ≠ hostLine) : reexamine hostLine s = s := by
  have hnone : s.channel.table.find? (·.hostLine == hostLine) = none :=
    List.find?_eq_none.mpr fun x hx => by simpa using h x hx
  simp only [reexamine, hnone]

theorem reexamine_of_residual (h : ∃ x ∈ s.channel.residuals, x.hostLine = hostLine) : reexamine hostLine s = s := by
  unfold reexamine
  split
  · exact if_neg fun ⟨_, hno⟩ => by simp [hasResidual_iff.mpr h] at hno
  · rfl

section Oldest

variable (htable : s.channel.table = older ++ e :: younger) (hbefore : ∀ x ∈ older, x.hostLine ≠ hostLine)
  (hline : e.hostLine = hostLine)
include htable hbefore hline

theorem reexamine_of_not_waiting (hst : e.state ≠ .waiting) : reexamine hostLine s = s := by
  have hfound : s.channel.table.find? (·.hostLine == hostLine) = some e := htable ▸ find?_oldest hbefore hline
  simp only [reexamine, hfound]
  exact if_neg fun ⟨hw, _⟩ => hst hw

/-- The oldest entry of a line, WAITING with no residual operation on the line, takes its next state (R39). -/
theorem reexamine_of_waiting (hnodup : (s.channel.table.map Entry.tag).Nodup) (hst : e.state = .waiting)
    (hresidual : ∀ x ∈ s.channel.residuals, x.hostLine ≠ hostLine) :
    reexamine hostLine s =
      { s with
        channel :=
          { s.channel with
            table :=
              older ++ { e with state := if isLocked s hostLine then .held else readyState e.request } :: younger } } := by
  have hfound : s.channel.table.find? (·.hostLine == hostLine) = some e := htable ▸ find?_oldest hbefore hline
  have hno : hasResidual s hostLine = false :=
    Bool.eq_false_iff.mpr fun h => by
      obtain ⟨x, hx, heq⟩ := hasResidual_iff.mp h
      exact hresidual x hx heq
  simp only [reexamine, hfound]
  rw [if_pos ⟨hst, hno⟩, setEntryState_at htable hnodup]

end Oldest

theorem isLocked_of_job (h : ∃ j ∈ s.queue, j.hostLine = hostLine) : isLocked s hostLine = true := isLocked_iff.mpr h

theorem isLocked_of_no_job (h : ∀ j ∈ s.queue, j.hostLine ≠ hostLine) : isLocked s hostLine = false :=
  Bool.eq_false_iff.mpr fun hl => by
    obtain ⟨j, hj, heq⟩ := isLocked_iff.mp hl
    exact h j hj heq

theorem readyState_of_masked_zero {r : Request} {d : LineData} (h : r = .maskedWrite d 0) :
    readyState r = .completing .ok none none := by
  rw [h]
  rfl

theorem readyState_of_other {r : Request} (h : ∀ d, r ≠ .maskedWrite d 0) : readyState r = .ready := by
  cases r with
  | read => rfl
  | write _ => rfl
  | maskedWrite d mask => exact if_neg fun hm => h d (by rw [hm])

end Table

end Sys2Proof.Machine

/-! ### The host channel (O25 to O27) -/

namespace Sys2Proof.Machine

open Sys2Proof.Safety

section Request

variable {s : State} {tag : Tag} {hostLine : Nat}

theorem tagOf_eq {tagByte : Byte} (h : tagByte.toNat % 32 = tag.val) : tagOf tagByte = tag := Fin.ext h

theorem exec_hostRequest_of_resetHigh {kind tagByte : Byte} {line : BitVec 32} {data : LineData} {mask : BitVec 64}
    (hup : s.pins.resetLow = false) (htag : tagByte.toNat % 32 = tag.val) :
    exec (.hostRequest kind tagByte line data mask) s =
      .next (requestArrives tag (requestOf kind data mask) line.toNat (clearOut s)) := by
  rw [← tagOf_eq htag]
  exact congrArg Host.Outcome.next (whenUp_of_resetHigh _ hup)

theorem serving_iff {o : OpState} : o.serving = true ↔ o = .ready ∨ o = .quiescing ∨ o = .quiet := by
  cases o <;> simp [OpState.serving]

theorem requestOf_of_other {kind : Byte} {data : LineData} {mask : BitVec 64} (h : kind ≠ 1 ∧ kind ≠ 2 ∧ kind ≠ 3) :
    requestOf kind data mask = none := by
  obtain ⟨h1, h2, h3⟩ := h
  unfold requestOf
  split
  · next hk => exact absurd (BitVec.eq_of_toNat_eq hk) h1
  · next hk => exact absurd (BitVec.eq_of_toNat_eq hk) h2
  · next hk => exact absurd (BitVec.eq_of_toNat_eq hk) h3
  · rfl

theorem entryOf_isSome_iff : (entryOf s tag).isSome = true ↔ ∃ e ∈ s.channel.table, e.tag = tag := by
  simp [entryOf]

section Free

variable {r : Option Request} (hfree : ∀ e ∈ s.channel.table, e.tag ≠ tag)
include hfree

theorem requestArrives_of_not_serving (ho : s.opState.serving = false) :
    requestArrives tag r hostLine s = refuseRequest tag .notReady s := by
  have hno : ¬ (entryOf s tag).isSome = true := fun h => by
    obtain ⟨e, he, heq⟩ := entryOf_isSome_iff.mp h
    exact hfree e he heq
  unfold requestArrives
  rw [if_neg hno, if_pos ho]

theorem requestArrives_of_serving (ho : s.opState.serving = true) :
    requestArrives tag r hostLine s =
      match r with
      | some q => if hostLine < hostLines s then settle (admitRequest tag hostLine q s) else refuseRequest tag .outOfRange s
      | none => refuseRequest tag .outOfRange s := by
  have hno : ¬ (entryOf s tag).isSome = true := fun h => by
    obtain ⟨e, he, heq⟩ := entryOf_isSome_iff.mp h
    exact hfree e he heq
  unfold requestArrives
  rw [if_neg hno, if_neg (by simp [ho])] <;> rfl

end Free

/-- Settles O25, by the orders of R35. -/
theorem hostRequestNotAdmitted : Obligations.HostRequestNotAdmitted := by
  intro kind tagByte line data mask tag s hup htag request refused
  have arrives := exec_hostRequest_of_resetHigh (kind := kind) (line := line) (data := data) (mask := mask) hup htag
  refine ⟨fun hused => ?used, fun hfree => ⟨fun hstate => ?notReady, fun hstate hbad => ?outOfRange⟩⟩
  case used =>
    have hyes : (entryOf (clearOut s) tag).isSome = true := entryOf_isSome_iff.mpr hused
    refine arrives.trans ?_
    unfold requestArrives
    rw [if_pos hyes]
    rfl
  case notReady =>
    have hno : (clearOut s).opState.serving = false := by
      show s.opState.serving = false
      rcases hstate with h | h | h
      all_goals
        rw [h]
        rfl
    refine arrives.trans ?_
    rw [requestArrives_of_not_serving (s := clearOut s) hfree hno]
    rfl
  case outOfRange =>
    have hyes : (clearOut s).opState.serving = true := serving_iff.mpr hstate
    refine arrives.trans ?_
    rw [requestArrives_of_serving (s := clearOut s) hfree hyes]
    rcases hbad with hline | hkind
    · have hge : ¬ line.toNat < hostLines (clearOut s) := Nat.not_lt.mpr hline
      cases requestOf kind data mask with
      | none => rfl
      | some q =>
        dsimp only
        rw [if_neg hge]
        rfl
    · rw [requestOf_of_other hkind]
      rfl

theorem firstState_of_behind {r : Request}
    (h : (∃ e ∈ s.channel.table, e.hostLine = hostLine) ∨ ∃ x ∈ s.channel.residuals, x.hostLine = hostLine) :
    firstState s hostLine r = .waiting := by
  refine if_pos ?_
  simpa [hasResidual] using h

theorem firstState_of_not_behind {r : Request}
    (h : ¬ ((∃ e ∈ s.channel.table, e.hostLine = hostLine) ∨ ∃ x ∈ s.channel.residuals, x.hostLine = hostLine)) :
    firstState s hostLine r = if isLocked s hostLine then .held else readyState r := by
  refine if_neg ?_
  simpa [hasResidual] using h

/-- Settles O26: the request is admitted, and its first state is that of R37 and R41. -/
theorem hostRequestAdmitted : Obligations.HostRequestAdmitted := by
  intro kind tagByte line data mask tag s hup htag hfree hstate hlt c behind locked admitted admittedAs
  have hyes : (clearOut s).opState.serving = true := serving_iff.mpr hstate
  have hin : line.toNat < hostLines (clearOut s) := hlt
  have arrives : ∀ q, requestOf kind data mask = some q →
      exec (.hostRequest kind tagByte line data mask) s =
        .next (settle (admitRequest tag line.toNat q (clearOut s))) := fun q hq => by
    rw [exec_hostRequest_of_resetHigh hup htag, requestArrives_of_serving (s := clearOut s) hfree hyes, hq]
    dsimp only
    rw [if_pos hin]
  have admits : ∀ q free, requestOf kind data mask = some q → readyState q = free →
      admittedAs q (countRequest q c) free := fun q free hq hfree' => by
    refine ⟨fun hbehind => ?_, fun hnot hlocked => ?_, fun hnot hunlocked => ?_⟩
    · refine (arrives q hq).trans ?_
      rw [admitRequest, firstState_of_behind (s := clearOut s) hbehind]
      rfl
    · refine (arrives q hq).trans ?_
      have hl : isLocked (clearOut s) line.toNat = true := isLocked_of_job hlocked
      rw [admitRequest, firstState_of_not_behind (s := clearOut s) hnot, if_pos hl]
      rfl
    · refine (arrives q hq).trans ?_
      have hl : ¬ isLocked (clearOut s) line.toNat = true := fun h => hunlocked (isLocked_iff.mp h)
      rw [admitRequest, firstState_of_not_behind (s := clearOut s) hnot, if_neg hl, hfree']
      rfl
  refine ⟨?read, ?write, ?masked, ?clear⟩
  case read =>
    rintro rfl
    exact admits .read .ready rfl rfl
  case write =>
    rintro rfl
    exact admits (.write data) .ready rfl rfl
  case masked =>
    rintro rfl hmask
    exact admits (.maskedWrite data mask) .ready rfl (if_neg hmask)
  case clear =>
    rintro rfl hmask
    exact admits (.maskedWrite data mask) (.completing .ok none none) rfl (if_pos hmask)

end Request

section Completion

variable {s : State} {e y : Entry}

/-- Of two entries of a line in the table, the one that is not WAITING is the older (R39). -/
theorem waiting_of_other {table : List Entry}
    (hbehind : table.Pairwise fun older younger => older.hostLine = younger.hostLine → younger.state = .waiting)
    (he : e ∈ table) (hy : y ∈ table) (hne : e ≠ y) (hline : y.hostLine = e.hostLine) (hst : e.state ≠ .waiting) :
    y.state = .waiting := by
  have either : table.Pairwise fun a b => a.hostLine = b.hostLine → a.state = .waiting ∨ b.state = .waiting :=
    hbehind.imp fun h heq => .inr (h heq)
  have : Std.Symm fun a b : Entry => a.hostLine = b.hostLine → a.state = .waiting ∨ b.state = .waiting :=
    ⟨fun _ _ h heq => (h heq.symm).symm⟩
  exact (either.forall he hy hne hline.symm).resolve_left hst

/-- Settles O27, from the re-examination of the line (R39). -/
theorem completionTaken : Obligations.CompletionTaken := by
  intro tag e status data ctx s hup htable he htag hst rest sent
  obtain ⟨hnodup, hbehind⟩ := htable
  have hentry : entryOf (clearOut s) tag = some e := htag ▸ entryOf_of_mem (s := clearOut s) hnodup he
  have taken : exec (.completion tag) s = .next (settle (reexamine e.hostLine (sent rest))) := by
    refine (congrArg Host.Outcome.next (whenUp_of_resetHigh (fun t => settle (takeCompletion tag t)) hup)).trans ?_
    rw [takeCompletion, hentry]
    dsimp only
    rw [hst]
    rfl
  have hrest : (rest.map Entry.tag).Nodup := hnodup.sublist (List.filter_sublist.map _)
  refine ⟨fun hnone => ?_, fun older y younger hsplit hbefore hline hresidual => ?_⟩
  · rw [taken]
    rcases hnone with h | h
    · rw [reexamine_of_line_free (s := sent rest) h]
    · rw [reexamine_of_residual (s := sent rest) h]
  · have hy : y ∈ rest := by simp [hsplit]
    obtain ⟨hytable, hytag⟩ := List.mem_filter.mp hy
    have hne : e ≠ y := fun heq => by simp [← heq, htag] at hytag
    have hwaiting : y.state = .waiting := waiting_of_other hbehind he hytable hne hline (by simp [hst])
    have passed := reexamine_of_waiting (s := sent rest) hsplit hbefore hline hrest hwaiting hresidual
    have moves : ∀ st, (if isLocked (sent rest) e.hostLine then .held else readyState y.request) = st →
        exec (.completion tag) s = .next (settle (sent (older ++ { y with state := st } :: younger))) := fun st h => by
      rw [taken, passed, h]
    refine ⟨hwaiting, fun hlocked => moves _ (if_pos (isLocked_of_job hlocked)), fun hfree => ?_⟩
    have hno : ¬ isLocked (sent rest) e.hostLine = true :=
      Bool.eq_false_iff.mp (isLocked_of_no_job (s := sent rest) hfree)
    exact ⟨fun d hd => moves _ ((if_neg hno).trans (readyState_of_masked_zero hd)),
      fun hother => moves _ ((if_neg hno).trans (readyState_of_other hother))⟩

end Completion

end Sys2Proof.Machine

/-! ### LINK_RESET and residual operations (O28) -/

namespace Sys2Proof.Machine

open Sys2Proof.Safety

section LinkReset

variable {s : State} {e : Entry} {x : Residual} {tag : Tag} {id : SlotId}

theorem issued_of_slotOfTag (h : slotOfTag s tag = some id) :
    ∃ r, s.media.slots[id.val] = .issued r ∧ r.owner = .host tag := by
  unfold slotOfTag at h
  have carries := List.find?_some h
  split at carries
  · next r hr => exact ⟨r, hr, eq_of_beq carries⟩
  · cases carries

theorem slotOfTag_isSome {r : SlotRecord} (hslot : s.media.slots[id.val] = .issued r) (howner : r.owner = .host tag) :
    (slotOfTag s tag).isSome = true := by
  unfold slotOfTag
  refine List.find?_isSome.mpr ⟨id, List.mem_finRange id, ?_⟩
  simp [hslot, howner]

/-- A slot at LINK_RESET, by its contents (R60). -/
theorem slotAtLinkReset_eq (slot : Slot) :
    slotAtLinkReset slot =
      match slot with
      | .issued { op := op, line := line, owner := .host _, timer := timer } =>
        .issued { op := op, line := line, owner := .residual, timer := timer }
      | x => x := by
  rcases slot with _ | ⟨op, line, owner, timer⟩ | _
  · rfl
  · cases owner <;> rfl
  · rfl

/-- No two slots are ISSUED for one host tag (R64). -/
def HostOwnersDiffer (s : State) : Prop :=
  ∀ (i j : SlotId) r r' (tag : Tag), s.media.slots[i.val] = .issued r → s.media.slots[j.val] = .issued r' →
    r.owner = .host tag → r'.owner = .host tag → i = j

theorem slotOfTag_iff (hunique : HostOwnersDiffer s) :
    slotOfTag s tag = some id ↔ ∃ r, s.media.slots[id.val] = .issued r ∧ r.owner = .host tag := by
  refine ⟨issued_of_slotOfTag, ?_⟩
  rintro ⟨r, hslot, howner⟩
  obtain ⟨i, hi⟩ := Option.isSome_iff_exists.mp (slotOfTag_isSome hslot howner)
  obtain ⟨r', hslot', howner'⟩ := issued_of_slotOfTag hi
  rw [hi, hunique i id r' r tag hslot' hslot howner' howner]

/-- The residual operation of an EXECUTING entry with an operation in flight (R49, R51). -/
theorem residualOf_eq_some_iff :
    residualOf s e = some x ↔
      ∃ ctx, e.state = .executing ctx ∧ slotOfTag s e.tag = some x.slot ∧ x.hostLine = e.hostLine ∧
        x.returned = ctx.returned ∧ x.op = residualOpOf ctx.phase := by
  unfold residualOf
  split
  · next ctx hst =>
    simp only [hst, Option.map_eq_some_iff, EntryState.executing.injEq, exists_eq_left']
    constructor
    · rintro ⟨id, hid, rfl⟩
      exact ⟨hid, rfl, rfl, rfl⟩
    · rintro ⟨hslot, hline, hreturned, hop⟩
      refine ⟨x.slot, hslot, ?_⟩
      rw [← hline, ← hop, ← hreturned]
  · next hst =>
    constructor
    · nofun
    · rintro ⟨ctx, h, -⟩
      exact absurd h (hst ctx)

theorem headLineExecuting_iff :
    headLineExecuting s = true ↔
      ∃ j rest, s.queue = j :: rest ∧
        ∃ e ∈ s.channel.table, e.hostLine = j.hostLine ∧ ∃ ctx, e.state = .executing ctx := by
  unfold headLineExecuting
  cases s.queue <;> simp [isExecuting_iff]

theorem residualOrigin_eq (op : ResidualOp) :
    residualOrigin op = match op with | .read => .hostRead | _ => .hostWrite := by
  cases op <;> rfl

/-- The origin code that DATA_LOST carries for a residual operation (R84, 12.1). -/
theorem lostOrigin_residual (op : ResidualOp) :
    val (originCode (residualLostOrigin op)) = match op with | .read => 1 | .mergeRead => 7 | _ => 8 := by
  cases op <;> rfl

/-- The result of a residual operation at its record: the outcome, the record's removal and the re-examinations (R51, R102). -/
theorem residualResult_of_mem {r : MediaResult} (hx : x ∈ s.channel.residuals)
    (hnodup : (s.channel.residuals.map Residual.slot).Nodup) :
    deliver .residual x.slot r s =
      examineLine x.hostLine (reexamine x.hostLine
        { residualOutcome x r s with
          channel :=
            { (residualOutcome x r s).channel with
              residuals := (residualOutcome x r s).channel.residuals.filter fun y => y.slot != x.slot } }) := by
  show residualResult x.slot r s = _
  have hfind : s.channel.residuals.find? (fun y => y.slot == x.slot) = some x := find?_of_nodup_map hnodup hx
  rw [residualResult, hfind]

/-- Settles O28: the residual operations are those of the EXECUTING entries with an operation in flight. -/
theorem linkResetAndResidualOperations : Obligations.LinkResetAndResidualOperations := by
  refine ⟨fun s hup hunique => ⟨s.channel.table.filterMap (residualOf s), ?_⟩, fun x r s hx hnodup => ?_,
    fun line s => ⟨fun h => ?_, fun older e younger htable hbefore hline hnodup => ⟨fun hst => ?_, fun hst hresidual => ?_⟩⟩⟩
  · intro emptied headLineExecutes
    have values : linkResetValues (clearOut s) = emptied := by
      rw [linkResetValues, funext slotAtLinkReset_eq]
      rfl
    refine ⟨fun h => ?_, fun h => ?_, fun x => ?_⟩
    · have hno : ¬ headLineExecuting (clearOut s) = true := fun hyes => h (headLineExecuting_iff.mp hyes)
      rw [← values]
      exact (congrArg Host.Outcome.next (whenUp_of_resetHigh linkReset hup)).trans
        (congrArg Host.Outcome.next (if_neg hno))
    · have hyes : headLineExecuting (clearOut s) = true := headLineExecuting_iff.mpr h
      rw [← values]
      exact (congrArg Host.Outcome.next (whenUp_of_resetHigh linkReset hup)).trans
        (congrArg Host.Outcome.next (if_pos hyes))
    · rw [List.mem_filterMap]
      refine exists_congr fun e => and_congr_right fun _ => residualOf_eq_some_iff.trans (exists_congr fun ctx => ?_)
      rw [slotOfTag_iff hunique]
      constructor
      · rintro ⟨hst, ⟨r, hslot, howner⟩, hline, hreturned, hop⟩
        exact ⟨r, hst, hslot, howner, hline, hreturned, hop⟩
      · rintro ⟨r, hst, hslot, howner, hline, hreturned, hop⟩
        exact ⟨hst, ⟨r, hslot, howner⟩, hline, hreturned, hop⟩
  · intro line origin lostOrigin ends
    have ended : ∀ told, residualOutcome x r s = told → ends told := fun told h => by
      rw [← h]
      exact residualResult_of_mem hx hnodup
    refine ⟨fun hr => ended s ?_, fun hr => ended _ ?_, fun o d hr => ?_⟩
    · rcases hr with rfl | rfl <;> rfl
    · subst hr
      rfl
    · subst hr
      have read : residualOutcome x (.read o d) s = residualRead x o d s := rfl
      refine ⟨fun hcls => ⟨fun hop => ended _ ?_, fun hop => ended _ ?_⟩, fun hcls => ended _ ?_,
        fun hcls => ⟨fun hop hreturned => ended _ ?_, fun hother => ended _ ?_⟩, fun hcls => ended _ ?_⟩
      all_goals simp only [read, residualRead, hcls]
      · exact if_pos hop
      · exact if_neg hop
      · rw [residualOrigin_eq] <;> rfl
      · rw [if_pos ⟨hop, hreturned⟩, hop]
        rfl
      · have hno : ¬ (x.op = .verify ∧ x.returned = true) := fun ⟨hv, hret⟩ =>
          hother.elim (fun h => h hv) fun h => by simp [h] at hret
        rw [if_neg hno, residualOrigin_eq] <;> rfl
      · rw [residualOrigin_eq, listDataLost, raiseDataLost, lostOrigin_residual] <;> rfl
  · rcases h with h | h
    · exact reexamine_of_line_free h
    · exact reexamine_of_residual h
  · exact reexamine_of_not_waiting htable hbefore hline hst
  · have passed := reexamine_of_waiting htable hbefore hline hnodup hst hresidual
    refine ⟨fun hlocked => ?_, fun hfree => ⟨fun d hd => ?_, fun hother => ?_⟩⟩
    · rw [passed, if_pos (isLocked_of_job hlocked)]
    · have hno : ¬ isLocked s line = true := Bool.eq_false_iff.mp (isLocked_of_no_job hfree)
      rw [passed, if_neg hno, readyState_of_masked_zero hd]
    · have hno : ¬ isLocked s line = true := Bool.eq_false_iff.mp (isLocked_of_no_job hfree)
      rw [passed, if_neg hno, readyState_of_other hother]

end LinkReset

end Sys2Proof.Machine

/-! ### The slots, the timers and the notices (O29, O31, O32, O33, O48) -/

namespace Sys2Proof.Machine

open Sys2Proof.Safety

section Slots

variable {s : State} {id : SlotId}

/-- The decode counters rise by the class of the decode (R30). -/
theorem countDecode_eq (c : DecodeClass) :
    countDecode c s =
      { s with
        counters :=
          { s.counters with
            decodeSoft := if c = .soft then satInc s.counters.decodeSoft else s.counters.decodeSoft
            decodeHeavy := if c = .heavy then satInc s.counters.decodeHeavy else s.counters.decodeHeavy
            decodeLost := if c = .lost then satInc s.counters.decodeLost else s.counters.decodeLost } } := by
  cases c <;> rfl

theorem exec_readData_of_resetHigh (w : Codeword) (hup : s.pins.resetLow = false) :
    exec (.readData id w) s = .next (readDataArrives id w (clearOut s)) :=
  congrArg Host.Outcome.next (whenUp_of_resetHigh _ hup)

theorem readDataArrives_of_no_read {w : Codeword}
    (h : ∀ r, s.media.slots[id.val] = .issued r → ∃ codeword tries, r.op = .write codeword tries) :
    readDataArrives id w s = s := by
  unfold readDataArrives
  split
  · next hslot =>
    obtain ⟨codeword, tries, hop⟩ := h _ hslot
    cases hop
  · rfl

/-- Settles O29, by what the slot holds. -/
theorem readDataArrives_holds : Obligations.ReadDataArrives := by
  intro id w s hup o c
  refine ⟨fun line owner timer hslot => ?_, fun hno => ?_⟩
  · rw [exec_readData_of_resetHigh w hup, readDataArrives_of_issued_read (s := clearOut s) w hslot, acceptRead,
      countDecode_eq]
    rfl
  · rw [exec_readData_of_resetHigh w hup, readDataArrives_of_no_read (s := clearOut s) hno]
    rfl

/-- Settles O31, at the slot whose timer expires. -/
theorem slotTimersExpire : Obligations.SlotTimersExpire := by
  intro id s hup
  refine ⟨fun op line owner timer hslot => ?_, fun timer hslot => ?_⟩
  · have hout : operationTimesOut id (clearOut s) =
        settle (deliver owner id .timeout
          (raiseMediaTimeout line op (countTimeout (setSlot id (.quarantined 0) (clearOut s))))) := by
      simp only [operationTimesOut, clearOut_media, hslot]
    refine (congrArg Host.Outcome.next ((whenUp_of_resetHigh (operationTimesOut id) hup).trans hout)).trans ?_
    cases op <;> rfl
  · have hout : quarantineEnds id (clearOut s) = settle (setSlot id .free (clearOut s)) := by
      simp only [quarantineEnds, clearOut_media, hslot]
    exact congrArg Host.Outcome.next ((whenUp_of_resetHigh (quarantineEnds id) hup).trans hout)

end Slots

section Timers

variable {s : State}

theorem exec_patrolExpiry (hup : s.pins.resetLow = false) (hinterval : s.settings.patrolInterval ≠ 0) :
    exec .patrolExpiry s =
      let restarted : State := { s with patrol := { s.patrol with timer := 0 }, out := Outputs.none }
      .next (if s.opState = .ready then settle (expiryInReady restarted) else restarted) := by
  refine congrArg Host.Outcome.next ((whenUp_of_resetHigh patrolExpires hup).trans ?_)
  exact if_neg hinterval

theorem expiryInReady_of_step (h : s.patrol.step ≠ none) : expiryInReady s = missExpiry s :=
  if_pos (Option.isSome_iff_ne_none.mpr h)

section NoStep

variable (hstep : s.patrol.step = none)
include hstep

theorem expiryInReady_of_beyond (h : s.patrol.liveEnd < s.patrol.cursor) : expiryInReady s = sweepEnd s := by
  rw [expiryInReady, if_neg (by simp [hstep]), if_pos h]

theorem expiryInReady_of_locked (h : s.patrol.cursor ≤ s.patrol.liveEnd)
    (hlocked : ∃ j ∈ s.queue, j.hostLine = s.patrol.cursor) : expiryInReady s = skipLocked s := by
  rw [expiryInReady, if_neg (by simp [hstep]), if_neg (Nat.not_lt.mpr h), if_pos (isLocked_of_job hlocked)]

theorem expiryInReady_of_unlocked (h : s.patrol.cursor ≤ s.patrol.liveEnd)
    (hfree : ¬ ∃ j ∈ s.queue, j.hostLine = s.patrol.cursor) : expiryInReady s = beginStep s := by
  have hno : ¬ isLocked s s.patrol.cursor = true := fun hl => hfree (isLocked_iff.mp hl)
  rw [expiryInReady, if_neg (by simp [hstep]), if_neg (Nat.not_lt.mpr h), if_neg hno]

end NoStep

/-- Settles O32, by the rows of R159. -/
theorem patrolExpiryRows : Obligations.PatrolExpiryRows := by
  intro s hup hinterval c p r locked moved skipped
  have expires := exec_patrolExpiry hup hinterval
  have skips : skipLocked r = if p.liveEnd < moved then sweepEnd skipped else skipped := rfl
  refine ⟨fun hstate => expires.trans (congrArg Host.Outcome.next (if_neg hstate)), fun hstate => ?_⟩
  have ready : ∀ t, expiryInReady r = t → exec .patrolExpiry s = .next (settle t) := fun t h =>
    expires.trans (congrArg Host.Outcome.next ((if_pos hstate).trans (congrArg settle h)))
  refine ⟨fun hstep => ready _ (expiryInReady_of_step (s := r) hstep), fun hstep =>
    ⟨fun hbeyond => ready _ (expiryInReady_of_beyond (s := r) hstep hbeyond), fun hwithin =>
      ⟨fun hlocked hmoved => ready _ ?_, fun hlocked hmoved => ready _ ?_, fun hfree => ready _ ?_⟩⟩⟩
  · rw [expiryInReady_of_locked (s := r) hstep hwithin hlocked, skips, if_neg (Nat.not_lt.mpr hmoved)]
  · rw [expiryInReady_of_locked (s := r) hstep hwithin hlocked, skips, if_pos hmoved]
  · exact expiryInReady_of_unlocked (s := r) hstep hwithin hfree

/-- Settles O33, by the crossing of pace_period and the ALERT line. -/
theorem ticksAndPaceWrap : Obligations.TicksAndPaceWrap := by
  intro s hup n ticked
  have ticks : exec .millisecondTick s = .next (tick (clearOut s)) :=
    congrArg Host.Outcome.next (whenUp_of_resetHigh tick hup)
  have wrap : exec .paceWrap s = .next (paceWraps (clearOut s)) :=
    congrArg Host.Outcome.next (whenUp_of_resetHigh paceWraps hup)
  refine ⟨fun hbelow => ?_, fun hreach => ?_⟩
  · have hno : ¬ s.settings.pacePeriod ≤ s.notices.pace + 1 := Nat.not_le.mpr hbelow
    have hpace : tick (clearOut s) = ticked (n.pace + 1) n.alert n.armed := by
      simp only [tick, clearOut_settings, clearOut_notices, hno, false_and, if_false] <;> rfl
    rw [ticks, hpace]
  · intro wraps
    have hpace : tick (clearOut s) =
        if n.queue = [] then ticked 0 n.alert n.armed else alertRequest (ticked 0 n.alert n.armed) := by
      simp only [tick, clearOut_settings, clearOut_notices, hreach, true_and, if_true, ite_not, n, ne_eq] <;> rfl
    have both : ∀ alert armed, tick (clearOut s) = ticked 0 alert armed → wraps alert armed := fun alert armed h =>
      ⟨ticks.trans (congrArg _ h), wrap.trans (congrArg _ ((if_pos hreach).trans h))⟩
    refine ⟨fun hempty => both _ _ ?_, fun hnotice hreleased => both _ _ ?_, fun hnotice hasserted => both _ _ ?_⟩
    · rw [hpace, if_pos hempty]
    · rw [hpace, if_neg hnotice]
      exact alertRequest_released (s := ticked 0 n.alert n.armed) hreleased
    · rw [hpace, if_neg hnotice]
      refine (alertRequest_asserted (s := ticked 0 n.alert n.armed) hasserted).trans ?_
      simp only [ticked, hasserted]

/-- Settles O48, by the length of the queue and urgent_mask. -/
theorem raisingOfANotice : Obligations.RaisingOfANotice := by
  intro k h spare old values s n notice entered urgent
  refine ⟨fun hroom => ?_, fun hfull => raise_full hfull⟩
  have enters : raise k h spare old values s =
      if urgent then alertRequest (entered n.alert n.armed) else entered n.alert n.armed :=
    if_pos hroom
  refine ⟨fun hno => ?_, fun hyes hreleased => ?_, fun hyes hasserted => ?_⟩
  · rw [enters, if_neg hno]
  · rw [enters, if_pos hyes]
    exact alertRequest_released (s := entered n.alert n.armed) hreleased
  · rw [enters, if_pos hyes]
    refine (alertRequest_asserted (s := entered n.alert n.armed) hasserted).trans ?_
    simp only [entered, hasserted]

end Timers

end Sys2Proof.Machine

/-! ### The requests for a job and the reservation (O42, O41) -/

namespace Sys2Proof.Machine

open Sys2Proof.Safety

section Requests

variable {s : State} {hostLine : Nat} {o : Origin} {data : LineData} {tag : Option Tag} {j : Job}

/-- No job request is granted outside READY or with the journal FAILED (first rows of R96 and R97). -/
def Refusing (s : State) : Prop := s.opState ≠ .ready ∨ s.journal.state = .failed

theorem bufferRequest_of_refusing (h : Refusing s) : bufferRequest hostLine o data tag s = (.refused, s) := by
  unfold bufferRequest
  rcases h with h | h
  · exact if_pos h
  · rw [if_pos h, ite_self]

theorem fetchRequest_of_refusing (h : Refusing s) : fetchRequest hostLine o s = (.refused, s) := by
  unfold fetchRequest
  rcases h with h | h
  · exact if_pos h
  · rw [if_pos h, ite_self]

section Granting

variable (hgrant : ¬ Refusing s)
include hgrant

/-- Past their first rows the job requests look at the queue (R96). -/
theorem bufferRequest_eq :
    bufferRequest hostLine o data tag s =
      match jobOf s hostLine with
      | some j => if j.source = .fetch ∧ j.state = .queued then (.adopted, adopt hostLine data tag s) else (.refused, s)
      | none => if 8 ≤ s.queue.length then (.refused, s) else (.enqueued, enqueue hostLine o (some data) tag s) := by
  unfold bufferRequest
  rw [if_neg fun h => hgrant (.inl h), if_neg fun h => hgrant (.inr h)] <;> rfl

theorem fetchRequest_eq :
    fetchRequest hostLine o s =
      if isLocked s hostLine then (.alreadyQueued, s)
      else if 8 ≤ s.queue.length then (.refused, s)
      else (.enqueued, enqueue hostLine o none none s) := by
  rw [fetchRequest, if_neg fun h => hgrant (.inl h), if_neg fun h => hgrant (.inr h)]

theorem bufferRequest_of_job (hjob : jobOf s hostLine = some j) :
    bufferRequest hostLine o data tag s =
      if j.source = .fetch ∧ j.state = .queued then (.adopted, adopt hostLine data tag s) else (.refused, s) := by
  simp only [bufferRequest_eq hgrant, hjob]

omit hgrant in
theorem isLocked_of_jobOf (hjob : jobOf s hostLine = some j) : isLocked s hostLine = true :=
  isLocked_iff.mpr ⟨j, List.mem_of_find?_eq_some hjob, by simpa using List.find?_some hjob⟩

theorem fetchRequest_of_locked (hlocked : isLocked s hostLine = true) :
    fetchRequest hostLine o s = (.alreadyQueued, s) := by
  rw [fetchRequest_eq hgrant, if_pos hlocked]

section Unlocked

variable (hfree : ∀ j ∈ s.queue, j.hostLine ≠ hostLine)
include hfree

omit hgrant in
theorem jobOf_eq_none : jobOf s hostLine = none :=
  List.find?_eq_none.mpr fun j hj => by simpa using hfree j hj

theorem bufferRequest_of_unlocked :
    bufferRequest hostLine o data tag s =
      if 8 ≤ s.queue.length then (.refused, s) else (.enqueued, enqueue hostLine o (some data) tag s) := by
  simp only [bufferRequest_eq hgrant, jobOf_eq_none hfree]

theorem fetchRequest_of_unlocked :
    fetchRequest hostLine o s =
      if 8 ≤ s.queue.length then (.refused, s) else (.enqueued, enqueue hostLine o none none s) := by
  have hno : ¬ isLocked s hostLine = true := Bool.eq_false_iff.mp (isLocked_of_no_job hfree)
  rw [fetchRequest_eq hgrant, if_neg hno]

end Unlocked

end Granting

/-- Settles O42, by the rows of R96 and R97. -/
theorem jobRequestsAreAnswered : Obligations.JobRequestsAreAnswered := by
  intro h o data tag s refusing enqueued
  refine ⟨fun hno => ⟨bufferRequest_of_refusing hno, fetchRequest_of_refusing hno⟩, fun hgrant => ⟨fun j hjob => ?_,
    fun hfree => ⟨fun hfull => ?_, fun hroom => ?_⟩⟩⟩
  · have hbuffer := bufferRequest_of_job (o := o) (data := data) (tag := tag) hgrant hjob
    exact ⟨fetchRequest_of_locked hgrant (isLocked_of_jobOf hjob), fun hadopt => hbuffer.trans (if_pos hadopt),
      fun hother => hbuffer.trans (if_neg hother)⟩
  · exact ⟨(bufferRequest_of_unlocked hgrant hfree).trans (if_pos hfull),
      (fetchRequest_of_unlocked hgrant hfree).trans (if_pos hfull)⟩
  · have hno : ¬ 8 ≤ s.queue.length := Nat.not_le.mpr hroom
    exact ⟨(bufferRequest_of_unlocked hgrant hfree).trans (if_neg hno),
      (fetchRequest_of_unlocked hgrant hfree).trans (if_neg hno)⟩

end Requests

section Reservation

variable {s : State}

/-- Every spare is in one of the four states, so their counts sum to the length of the pool (R11). -/
theorem count_spareStates (l : List SpareState) :
    l.count .free + l.count .reserved + l.count .inUse + l.count .discarded = l.length := by
  induction l with
  | nil => rfl
  | cons st rest ih => cases st <;> simp <;> omega

/-- A change of the head job. -/
theorem updateHead_cons {f : Job → Job} {j : Job} {rest : List Job} (h : s.queue = j :: rest) :
    updateHead f s = { s with queue := f j :: rest } := by
  simp only [updateHead, h]

/-- A FREE spare taken leaves one FREE spare fewer (R15). -/
theorem spareCount_setSpare_reserved {i : Spare} (hi : spareState s i = .free) :
    spareCount .free (setSpare i .reserved s) = spareCount .free s - 1 := by
  have hlen : i.val < s.lineMap.spares.toList.length := by simp
  have hget : s.lineMap.spares.toList[i.val] = .free := by rw [Vector.getElem_toList]; exact hi
  simp only [spareCount, setSpare, Vector.toList_set]
  rw [List.count_set hlen, hget]
  rfl

/-- The first index with a property is the one that no smaller index shares it with. -/
theorem find?_finRange {n : Nat} {p : Fin n → Bool} {i : Fin n} (hi : p i = true) (hlow : ∀ k < i, p k = false) :
    (List.finRange n).find? p = some i :=
  List.find?_eq_some_iff_getElem.mpr
    ⟨hi, i.val, by simp, by simp, fun j hj => by simpa using hlow ⟨j, hj.trans i.isLt⟩ hj⟩

theorem lowestFree_eq {i : Spare} (hi : spareState s i = .free) (hlow : ∀ k : Spare, k < i → spareState s k ≠ .free) :
    lowestFree s = some i :=
  find?_finRange (by simpa using hi) fun k hk => by simpa using hlow k hk

theorem lowestFree_eq_none (h : ∀ i : Spare, spareState s i ≠ .free) : lowestFree s = none :=
  List.find?_eq_none.mpr fun i _ => by simpa using h i

theorem reservationTakesTheLowestSpare : Obligations.ReservationTakesTheLowestSpare := by
  intro s
  refine ⟨(count_spareStates _).trans (by simp), fun j rest hqueue => ⟨fun i hi hlow => ?_, fun hnone => ?_⟩⟩
  · intro n reserved
    have hcount : spareCount .free reserved = n - 1 := spareCount_setSpare_reserved hi
    have hhead : updateHead (fun j => { j with state := .placing, reserved := some i, attempts := j.attempts + 1 })
        (setSpare i .reserved s) = reserved :=
      updateHead_cons (s := setSpare i .reserved s) hqueue
    have hplaced : enterPlacing s =
        if s.settings.spareLowMark < n ∧ spareCount .free reserved ≤ s.settings.spareLowMark then
          raisePoolLow (spareCount .free reserved) reserved
        else reserved := by
      rw [← hhead]
      simp only [enterPlacing, hqueue, lowestFree_eq hi hlow] <;> rfl
    rw [hplaced, hcount]
    exact if_congr (and_congr_right fun _ => Nat.sub_le_iff_le_add) rfl rfl
  · simp only [enterPlacing, hqueue, lowestFree_eq_none hnone]
    rfl

end Reservation

end Sys2Proof.Machine

/-! ### Listings and the Health Tracker's actions (O47) -/

namespace Sys2Proof.Machine

open Sys2Proof.Safety

/-- Taking the entry of one line out of a list of lines that differ leaves the others in their order. -/
theorem filter_of_nodup {l older younger : List Suspect} {v : Suspect} (hlist : l = older ++ v :: younger)
    (hnodup : (l.map Suspect.hostLine).Nodup) : l.filter (fun x => x.hostLine != v.hostLine) = older ++ younger := by
  subst hlist
  rw [List.map_append, List.map_cons, List.nodup_middle, List.nodup_cons] at hnodup
  have hothers : ∀ x ∈ older ++ younger, x.hostLine ≠ v.hostLine := fun x hx heq =>
    hnodup.1 (by rw [← List.map_append]; exact List.mem_map.mpr ⟨x, hx, heq⟩)
  have holder : older.filter (fun x => x.hostLine != v.hostLine) = older :=
    List.filter_eq_self.mpr fun x hx => by simpa using hothers x (List.mem_append_left _ hx)
  have hyounger : younger.filter (fun x => x.hostLine != v.hostLine) = younger :=
    List.filter_eq_self.mpr fun x hx => by simpa using hothers x (List.mem_append_right _ hx)
  rw [List.filter_append, holder, List.filter_cons_of_neg (by simp), hyounger]

section Listing

variable {s : State} {hostLine : Nat} {reason : Reason} {o : Origin}

theorem isListed_iff : isListed s hostLine = true ↔ ∃ x ∈ s.suspects, x.hostLine = hostLine := by
  simp [Tracked.isListed_eq_any]

theorem listSuspect_of_listed (h : ∃ x ∈ s.suspects, x.hostLine = hostLine) :
    listSuspect hostLine reason o s =
      { s with suspects := s.suspects.map fun x => if x.hostLine = hostLine then raiseSuspect reason x else x } :=
  if_pos (isListed_iff.mpr h)

section New

variable (hnew : ∀ x ∈ s.suspects, x.hostLine ≠ hostLine)
include hnew

theorem listSuspect_of_room (hroom : s.suspects.length < 64) :
    listSuspect hostLine reason o s = { s with suspects := s.suspects ++ [newSuspect s hostLine reason o] } := by
  have hno : ¬ isListed s hostLine = true := Bool.eq_false_iff.mp (isListed_eq_false_iff.mpr hnew)
  unfold listSuspect
  rw [if_neg hno, if_pos hroom]

theorem listSuspect_of_full (hfull : 64 ≤ s.suspects.length) :
    listSuspect hostLine reason o s =
      match s.suspects.find? (·.reason == .soft) with
      | some v =>
        { raiseSuspectEvicted v.hostLine (removeSuspect v.hostLine s) with
          suspects :=
            (raiseSuspectEvicted v.hostLine (removeSuspect v.hostLine s)).suspects ++ [newSuspect s hostLine reason o] }
      | none =>
        { raiseSuspectOverflow hostLine s with
          counters :=
            { (raiseSuspectOverflow hostLine s).counters with
              suspectOverflows := satInc (raiseSuspectOverflow hostLine s).counters.suspectOverflows } } := by
  have hno : ¬ isListed s hostLine = true := Bool.eq_false_iff.mp (isListed_eq_false_iff.mpr hnew)
  unfold listSuspect
  rw [if_neg hno, if_neg (Nat.not_lt.mpr hfull)] <;> rfl

/-- The oldest SOFT entry is evicted from a full list (R80). -/
theorem listSuspect_of_evicted {older younger : List Suspect} {v : Suspect} (hfull : 64 ≤ s.suspects.length)
    (hlist : s.suspects = older ++ v :: younger) (hsoft : v.reason = .soft) (holder : ∀ x ∈ older, x.reason ≠ .soft)
    (hnodup : (s.suspects.map Suspect.hostLine).Nodup) :
    listSuspect hostLine reason o s =
      { raise .suspectEvicted (some v.hostLine) none none [] s with
        suspects := older ++ younger ++ [newSuspect s hostLine reason o] } := by
  have hfind : s.suspects.find? (·.reason == .soft) = some v :=
    List.find?_eq_some_iff_append.mpr
      ⟨by simp [hsoft], older, younger, hlist, fun x hx => by simpa using holder x hx⟩
  have hremoved : removeSuspect v.hostLine s = { s with suspects := older ++ younger } := by
    rw [removeSuspect, filter_of_nodup hlist hnodup]
  rw [listSuspect_of_full hnew hfull, hfind]
  dsimp only
  rw [raiseSuspectEvicted, hremoved, patrolOnly_raise.suspects_comm]

theorem listSuspect_of_overflow (hfull : 64 ≤ s.suspects.length) (hsoft : ∀ x ∈ s.suspects, x.reason ≠ .soft) :
    listSuspect hostLine reason o s =
      { raiseSuspectOverflow hostLine s with
        counters :=
          { (raiseSuspectOverflow hostLine s).counters with
            suspectOverflows := satInc (raiseSuspectOverflow hostLine s).counters.suspectOverflows } } := by
  have hnone : s.suspects.find? (·.reason == .soft) = none :=
    List.find?_eq_none.mpr fun x hx => by simpa using hsoft x hx
  rw [listSuspect_of_full hnew hfull, hnone]

end New

end Listing

/-- A notice changes the Notice Unit and the counters only (R174, R175). -/
theorem raise_eq (k hostLine spare old values) (s : State) :
    ∃ n c, raise k hostLine spare old values s = { s with notices := n, counters := c } := by
  unfold raise
  dsimp only
  split
  · split
    · obtain ⟨n, hn⟩ := alertRequest_eq { s with notices := { s.notices with
        sequence := s.notices.sequence + 1
        queue := s.notices.queue ++ [noticeOf s k hostLine spare old values] } }
      exact ⟨n, s.counters, hn⟩
    · exact ⟨_, s.counters, rfl⟩
  · exact ⟨_, _, rfl⟩

/-- A listing changes the Suspect List, the Notice Unit and the counters only (R79, R80). -/
theorem listSuspect_eq (hostLine reason o) (s : State) :
    ∃ l n c, listSuspect hostLine reason o s = { s with suspects := l, notices := n, counters := c } := by
  unfold listSuspect
  split
  · exact ⟨_, s.notices, s.counters, rfl⟩
  · split
    · exact ⟨_, s.notices, s.counters, rfl⟩
    · split
      · next v _ =>
        obtain ⟨n, c, hraised⟩ := raise_eq .suspectEvicted (some v.hostLine) none none [] (removeSuspect v.hostLine s)
        rw [raiseSuspectEvicted, hraised]
        exact ⟨_, n, c, rfl⟩
      · obtain ⟨n, c, hraised⟩ := raise_eq .suspectOverflow (some hostLine) none none [] s
        rw [raiseSuspectOverflow, hraised]
        exact ⟨s.suspects, n, _, rfl⟩

@[simp] theorem listSuspect_settings (hostLine reason o) (s : State) :
    (listSuspect hostLine reason o s).settings = s.settings := by
  obtain ⟨l, n, c, h⟩ := listSuspect_eq hostLine reason o s
  rw [h]

section Actions

variable {s t : State} {hostLine : Nat} {o : Origin} {x : Suspect}

theorem softAction_of_untracked (hnew : ∀ x ∈ s.suspects, x.hostLine ≠ hostLine) (htrack : s.settings.trackSoft = false) :
    softAction hostLine o s = s := by
  refine if_neg ?_
  simp [isListed_eq_false_iff.mpr hnew, htrack]

theorem softAction_of_tracked
    (h : (∃ x ∈ s.suspects, x.hostLine = hostLine) ∨ s.settings.trackSoft = true) :
    softAction hostLine o s = softLimitRequest hostLine o (listSuspect hostLine .soft o s) := by
  refine if_pos ?_
  rw [Bool.or_eq_true, isListed_iff]
  exact h

theorem softLimitRequest_of_below
    (h : ¬ (s.settings.autoRetire = true ∧ ∃ x, suspectOf s hostLine = some x ∧ s.settings.softLimit ≤ x.hits)) :
    softLimitRequest hostLine o s = s := by
  unfold softLimitRequest
  split
  · next x hx => exact if_neg fun ⟨hlimit, hauto⟩ => h ⟨hauto, x, hx, hlimit⟩
  · rfl

theorem softLimitRequest_of_asks
    (h : s.settings.autoRetire = true ∧ ∃ x, suspectOf s hostLine = some x ∧ s.settings.softLimit ≤ x.hits) :
    softLimitRequest hostLine o s =
      match fetchRequest hostLine o s with
      | (.enqueued, t) => examineLine hostLine t
      | (.refused, t) => deferSuspect hostLine t
      | (_, t) => t := by
  obtain ⟨hauto, x, hx, hlimit⟩ := h
  simp only [softLimitRequest, hx]
  rw [if_pos ⟨hlimit, hauto⟩] <;> rfl

theorem deferSuspect_eq :
    deferSuspect hostLine t =
      { t with
        suspects :=
          t.suspects.map fun x =>
            if x.hostLine = hostLine ∧ reasonCode x.reason ≤ reasonCode .deferred then { x with reason := .deferred }
            else x } := by
  have hraise : ∀ x : Suspect, (if x.hostLine = hostLine then { x with reason := reasonMax x.reason .deferred } else x) =
      if x.hostLine = hostLine ∧ reasonCode x.reason ≤ reasonCode .deferred then { x with reason := .deferred } else x :=
    fun x => by
      by_cases hline : x.hostLine = hostLine
      · by_cases hcode : reasonCode x.reason ≤ reasonCode .deferred
        · rw [if_pos hline, if_pos ⟨hline, hcode⟩, reasonMax, if_pos hcode]
        · rw [if_pos hline, if_neg fun h => hcode h.2, reasonMax, if_neg hcode]
      · rw [if_neg hline, if_neg fun h => hline h.1]
  rw [deferSuspect, funext hraise]

theorem heavyWithData_of_auto (hauto : s.settings.autoRetire = true) {data : LineData} {tag : Option Tag} :
    heavyWithData hostLine o data tag s =
      match bufferRequest hostLine o data tag s with
      | (.refused, t) => (false, listSuspect hostLine .deferred o t)
      | (_, t) => (true, listTaken hostLine o t) := by
  unfold heavyWithData
  rw [if_pos hauto] <;> rfl

theorem heavyPatrol_of_auto (hauto : s.settings.autoRetire = true) :
    heavyPatrol hostLine s =
      match fetchRequest hostLine .patrol s with
      | (.refused, t) => listSuspect hostLine .deferred .patrol t
      | (.enqueued, t) => examineLine hostLine (listTaken hostLine .patrol t)
      | (_, t) => listTaken hostLine .patrol t := by
  unfold heavyPatrol
  rw [if_pos hauto] <;> rfl

theorem listTaken_of_listed (h : ∃ x ∈ s.suspects, x.hostLine = hostLine) :
    listTaken hostLine o s = listSuspect hostLine .heavy o s :=
  if_pos (isListed_iff.mpr h)

theorem listTaken_of_unlisted (h : ¬ ∃ x ∈ s.suspects, x.hostLine = hostLine) : listTaken hostLine o s = s :=
  if_neg fun hl => h (isListed_iff.mp hl)

/-- Settles O47, by the rows of R78 to R83. -/
theorem listingsAndTrackerActions : Obligations.ListingsAndTrackerActions := by
  refine ⟨fun h reason o s => ⟨listSuspect_of_listed, fun hnew =>
    ⟨listSuspect_of_room hnew, fun hfull => ⟨fun older v younger => listSuspect_of_evicted hnew hfull,
      listSuspect_of_overflow hnew hfull⟩⟩⟩, ?_⟩
  intro h o data tag s listed auto counted asks
  refine ⟨fun hno => softAction_of_untracked fun x hx hline => hno ⟨x, hx, hline⟩, fun htracked => ?soft, fun hoff => ?off,
    fun hon answer t => ?on⟩
  case soft =>
    have tracked : softAction h o s = softLimitRequest h o counted := softAction_of_tracked htracked
    have hsettings : counted.settings = s.settings := listSuspect_settings h .soft o s
    refine ⟨fun hno => tracked.trans (softLimitRequest_of_below (by rwa [hsettings])), fun hasks t => ?_⟩
    have asked := tracked.trans (softLimitRequest_of_asks (s := counted) (by rwa [hsettings]))
    refine ⟨fun hf => ?_, fun hf => ?_, fun hf => ?_⟩
    · rw [asked, hf]
    · rw [asked, hf]
    · rw [asked, hf]
      exact deferSuspect_eq
  case off => exact ⟨if_neg hoff, if_neg hoff⟩
  case on =>
    refine ⟨fun hb => ?_, fun hf => ?_⟩
    · have heavy := heavyWithData_of_auto (hostLine := h) (o := o) hon (data := data) (tag := tag)
      rw [hb] at heavy
      refine ⟨fun ha => ?_, fun ha => ?_⟩
      · subst ha
        exact heavy
      · have taken : heavyWithData h o data tag s = (true, listTaken h o t) := by
          rcases ha with rfl | rfl <;> exact heavy
        exact ⟨fun hl => by rw [taken, listTaken_of_listed hl], fun hl => by rw [taken, listTaken_of_unlisted hl]⟩
    · have heavy := heavyPatrol_of_auto (hostLine := h) hon
      rw [hf] at heavy
      refine ⟨fun ha => ?_, fun ha => ⟨fun hl => ?_, fun hl => ?_⟩, fun ha => ⟨fun hl => ?_, fun hl => ?_⟩⟩
      all_goals
        subst ha
        refine heavy.trans ?_
      · rfl
      · exact listTaken_of_listed hl
      · exact listTaken_of_unlisted hl
      · exact congrArg (examineLine h) (listTaken_of_listed hl)
      · exact congrArg (examineLine h) (listTaken_of_unlisted hl)

end Actions

end Sys2Proof.Machine

/-! ### Host execution: the ends of its operations (O34, O35) -/

namespace Sys2Proof.Machine

open Sys2Proof.Safety

section Ends

variable {s t : State} {e x : Entry} {ctx : Context} {tag : Tag} {st : EntryState} {hostLine : Nat} {o : Origin}
  {data : LineData}

/-- The result of an operation of an EXECUTING entry goes to that entry (R56 to R58). -/
theorem deliver_host_of_executing {id : SlotId} {r : MediaResult} (hlaw : TableLaw s) (he : e ∈ s.channel.table)
    (hst : e.state = .executing ctx) : deliver (.host e.tag) id r s = executingResult e ctx r s := by
  have hentry : entryOf s e.tag = some e := entryOf_of_mem hlaw.1 he
  show hostResult e.tag r s = _
  unfold hostResult
  rw [hentry]
  dsimp only
  rw [hst]

theorem suspectOf_eq_some {y : Suspect} (h : suspectOf s hostLine = some y) : y ∈ s.suspects ∧ y.hostLine = hostLine :=
  ⟨List.mem_of_find?_eq_some h, by simpa using List.find?_some h⟩

/-- A SOFT outcome below soft_limit, or with auto_retire off, is a listing and no more (R81). -/
theorem softAction_of_below (htracked : (∃ x ∈ s.suspects, x.hostLine = hostLine) ∨ s.settings.trackSoft = true)
    (hbelow : (∀ x ∈ (listSuspect hostLine .soft o s).suspects, x.hostLine = hostLine → x.hits < s.settings.softLimit) ∨
      s.settings.autoRetire = false) :
    softAction hostLine o s = listSuspect hostLine .soft o s := by
  rw [softAction_of_tracked htracked]
  refine softLimitRequest_of_below ?_
  rw [listSuspect_settings]
  rintro ⟨hauto, y, hy, hlimit⟩
  obtain ⟨hmem, hline⟩ := suspectOf_eq_some hy
  rcases hbelow with h | h
  · exact absurd hlimit (Nat.not_le.mpr (h y hmem hline))
  · simp [h] at hauto

/-- What is asked of a job in a case that takes it: the state READY, the journal not FAILED, another line's job at the head,
room in the queue, and no job of the line. -/
structure Takes (s : State) (hostLine : Nat) : Prop where
  granting : ¬ Refusing s
  waits : s.queue ≠ []
  room : s.queue.length < 8
  unlocked : ∀ j ∈ s.queue, j.hostLine ≠ hostLine

namespace Takes

variable (h : Takes s hostLine)
include h

theorem bufferRequest {tag : Option Tag} :
    Machine.bufferRequest hostLine o data tag s = (.enqueued, enqueue hostLine o (some data) tag s) :=
  (bufferRequest_of_unlocked h.granting h.unlocked).trans (if_neg (Nat.not_le.mpr h.room))

/-- The head job is another line's, so the line's examination does nothing (R101). -/
theorem examineLine {j : Job} (hqueue : t.queue = s.queue ++ [j]) : Machine.examineLine hostLine t = t := by
  obtain ⟨head, rest, hhead⟩ := List.exists_cons_of_ne_nil h.waits
  refine examineLine_of_other fun first others hfirst => ?_
  rw [hqueue, hhead, List.cons_append, List.cons.injEq] at hfirst
  exact hfirst.1 ▸ h.unlocked head (hhead ▸ List.mem_cons_self)

end Takes

theorem listTaken_queue : (listTaken hostLine o s).queue = s.queue := by
  unfold listTaken
  split
  · obtain ⟨l, n, c, h⟩ := listSuspect_eq hostLine .heavy o s
    rw [h]
  · rfl

/-- An entry of the tag after its change of state. -/
theorem state_of_mem_setEntryState (hx : x ∈ (setEntryState tag st s).channel.table) (htag : x.tag = tag) : x.state = st := by
  obtain ⟨y, hy, rfl⟩ := List.mem_map.mp hx
  by_cases h : y.tag = tag
  · rw [if_pos h]
  · rw [if_neg h] at htag
    exact absurd htag h

/-- Settles O34, by class (R66, R81, R82). -/
theorem hostReadEnds : Obligations.HostReadEnds := by
  intro e ctx id o d s hlaw he hst hphase line completes ended refusing
  have tells : ∀ r, deliver (.host e.tag) id r s = executingResult e ctx r s := fun r =>
    deliver_host_of_executing hlaw he hst
  have hread : ended = readOutcome e ctx o d s := by
    refine (tells _).trans ?_
    unfold executingResult
    dsimp only
    rw [hphase]
  have soft : o.cls = .soft → ended = completes .ok (some d) (softAction line .hostRead s) := fun hcls => by
    rw [hread, readOutcome, hcls] <;> rfl
  have heavy : o.cls = .heavy → ended = completes .ok (some d) (heavyWithData line .hostRead d none s).2 := fun hcls => by
    rw [hread, readOutcome, hcls] <;> rfl
  refine ⟨tells _, fun hcls => ?clean, fun hcls => ⟨soft hcls, fun hnew htrack => ?untracked, fun htrack hbelow => ?below⟩,
    fun hcls => ⟨heavy hcls, fun hoff => ?off, fun hon hno => ?refused, fun hon hgrant hqueue hroom hfree => ?taken⟩,
    fun hcls => ?lost⟩
  case clean => rw [hread, readOutcome, hcls] <;> rfl
  case untracked => rw [soft hcls, softAction_of_untracked hnew htrack]
  case below => rw [soft hcls, softAction_of_below htrack hbelow]
  case off =>
    have hno : heavyWithData line .hostRead d none s = (false, listSuspect line .heavy .hostRead s) :=
      if_neg (by simp [hoff])
    rw [heavy hcls, hno]
  case refused => rw [heavy hcls, heavyWithData_of_auto hon, bufferRequest_of_refusing hno]
  case taken =>
    have takes : Takes s line := ⟨hgrant, hqueue, hroom, hfree⟩
    have htaken : (heavyWithData line .hostRead d none s).2 =
        listTaken line .hostRead (enqueue line .hostRead (some d) none s) := by
      rw [heavyWithData_of_auto hon, takes.bufferRequest]
    have hended : ended = setEntryState e.tag (.completing .ok (some d) (some ctx))
        (listTaken line .hostRead (enqueue line .hostRead (some d) none s)) := by
      rw [heavy hcls, htaken]
      exact takes.examineLine (listTaken_queue.trans enqueue_queue)
    refine ⟨?_, fun x hx htag => state_of_mem_setEntryState (hended ▸ hx) htag⟩
    rw [hended]
    exact listTaken_queue.trans enqueue_queue
  case lost => rw [hread, readOutcome, hcls] <;> rfl

/-! The ends of a write (O35). -/

theorem writtenData_eq (h : ctx.lineData = some data) : writtenData ctx = data := by
  rw [writtenData, h]
  rfl

theorem verifyLost_of_kept (h : s.settings.autoRetire = false ∨ ctx.returned = true) :
    verifyLost e ctx s = complete e ctx .mediaFault none (listDataLost e.hostLine .verify .hostWrite s) := by
  refine if_neg ?_
  rintro ⟨hauto, hreturned⟩
  rcases h with h | h
  · simp [h] at hauto
  · simp [h] at hreturned

theorem verifyLost_of_asks (hauto : s.settings.autoRetire = true) (hreturned : ctx.returned = false)
    (hdata : ctx.lineData = some data) :
    verifyLost e ctx s =
      match bufferRequest e.hostLine .hostWrite data (some e.tag) s with
      | (.refused, t) => complete e ctx .mediaFault none (listDataLost e.hostLine .verify .hostWrite t)
      | (_, t) => passToRetiring e ctx (listTaken e.hostLine .hostWrite t) := by
  unfold verifyLost
  rw [writtenData_eq hdata, if_pos ⟨hauto, hreturned⟩] <;> rfl

/-- A LOST verify whose job takes the data: the job joins the queue and the entry is RETIRING (R70). -/
theorem verifyLost_of_taken (hauto : s.settings.autoRetire = true) (hreturned : ctx.returned = false)
    (hdata : ctx.lineData = some data) (takes : Takes s e.hostLine) :
    verifyLost e ctx s =
      setEntryState e.tag (.retiring { ctx with returned := false })
        (listTaken e.hostLine .hostWrite (enqueue e.hostLine .hostWrite (some data) (some e.tag) s)) := by
  rw [verifyLost_of_asks hauto hreturned hdata, takes.bufferRequest]
  exact takes.examineLine (listTaken_queue.trans enqueue_queue)

theorem verifyHeavy_eq (hreturned : ctx.returned = false) (hdata : ctx.lineData = some data) :
    verifyHeavy e ctx s =
      match heavyWithData e.hostLine .hostWrite data (some e.tag) s with
      | (true, t) => passToRetiring e ctx t
      | (false, t) => complete e ctx .ok none t := by
  unfold verifyHeavy
  rw [writtenData_eq hdata, if_neg (by simp [hreturned])] <;> rfl

theorem toList_tabulate {α : Type} (n : Nat) (f : Nat → α) : (tabulate n f).toList = (List.range n).map f := rfl

theorem byteAt_tabulate {f : Nat → Byte} {i : Nat} (hi : i < 64) : byteAt (tabulate 64 f) i = f i := by
  simp [byteAt, toList_tabulate, hi]

/-- The bytes of a merged line (R74). -/
theorem byteAt_mergeLine {mask : BitVec 64} {d : LineData} {i : Nat} (hi : i < 64) :
    byteAt (mergeLine data mask d) i = if mask.getLsbD i then byteAt data i else byteAt d i :=
  byteAt_tabulate hi

/-- A HEAVY merge read: the entry is RETIRING where a job takes the merged line, and goes on to its write otherwise (R73). -/
theorem mergeOutcome_of_heavy {d merged : LineData} {outcome : DecodeOutcome} {took : Bool} (hcls : outcome.cls = .heavy)
    (hmerged : mergedData e d = merged)
    (h : heavyWithData e.hostLine .hostWrite merged (some e.tag)
      (setEntryState e.tag (.executing { ctx with lineData := some merged }) s) = (took, t)) :
    mergeOutcome e ctx outcome d s = if took then passToRetiring e { ctx with lineData := some merged } t else t := by
  subst hmerged
  unfold mergeOutcome
  rw [hcls]
  dsimp only
  rw [h]
  cases took <;> rfl

/-- Settles O35, by phase, result and class (R69 to R74). -/
theorem hostWriteEnds : Obligations.HostWriteEnds := by
  intro e ctx id o d data s hlaw he hst hdata line passes completes retires told listedLost lost
  have tells : ∀ r, told r = executingResult e ctx r s := fun r => deliver_host_of_executing hlaw he hst
  have lostOf : lost (verifyLost e ctx s) := by
    refine ⟨verifyLost_of_kept, fun hon hreturned answer u hb => ?_,
      fun hon hreturned hstate hjournal hqueue hroom hfree => ?_⟩
    · have asked := verifyLost_of_asks (e := e) hon hreturned hdata
      rw [hb] at asked
      refine ⟨fun ha => ?_, fun ha => ?_⟩
      · subst ha
        exact asked
      · have taken : verifyLost e ctx s = retires ctx (listTaken line .hostWrite u) := by
          rcases ha with rfl | rfl <;> exact asked
        refine ⟨fun hl => by rw [taken, listTaken_of_listed hl], fun hl => ?_⟩
        rw [taken, listTaken_of_unlisted fun ⟨x, hx, hline⟩ => hl x hx hline]
    · have takes : Takes s line := ⟨fun h => h.elim (fun h => h hstate) hjournal, hqueue, hroom, hfree⟩
      have taken := verifyLost_of_taken hon hreturned hdata takes
      refine ⟨?_, fun x hx htag => state_of_mem_setEntryState (taken ▸ hx) htag⟩
      rw [taken]
      exact listTaken_queue.trans enqueue_queue
  refine ⟨tells _, fun hphase => ⟨fun howed => ?done, fun howed => ?done', ?exhausted⟩,
    fun hphase => ?verify, fun bytes mask hrequest hphase => ?merge⟩
  case done => exact (tells _).trans (if_pos howed)
  case done' => exact (tells _).trans (if_neg (by simp [howed]))
  case exhausted => exact (tells .exhausted) ▸ lostOf
  case verify =>
    have hread : told (.read o d) = verifyOutcome e ctx o s := by
      refine (tells _).trans ?_
      unfold executingResult
      dsimp only
      rw [hphase]
    refine ⟨fun hcls => ?_, fun hcls => ?_, fun hcls => ⟨fun hreturned => ?_, fun hreturned t => ?_⟩, fun hcls => ?_⟩
    · rw [hread, verifyOutcome, hcls] <;> rfl
    · rw [hread, verifyOutcome, hcls] <;> rfl
    · rw [hread, verifyOutcome, hcls]
      exact if_pos hreturned
    · have heavy : told (.read o d) = verifyHeavy e ctx s := by rw [hread, verifyOutcome, hcls]
      rw [verifyHeavy_eq hreturned hdata] at heavy
      exact ⟨fun h => by rw [heavy, h] <;> rfl, fun h => by rw [heavy, h] <;> rfl⟩
    · have hlost : told (.read o d) = verifyLost e ctx s := by rw [hread, verifyOutcome, hcls]
      exact hlost ▸ lostOf
  case merge =>
    have hread : told (.read o d) = mergeOutcome e ctx o d s := by
      refine (tells _).trans ?_
      unfold executingResult
      dsimp only
      rw [hphase]
    have hmerged : mergedData e d = mergeLine bytes mask d := by rw [mergedData, hrequest]
    refine ⟨fun hcls => ?_, fun hcls => ⟨mergeLine bytes mask d, fun i hi => byteAt_mergeLine hi, fun hcls => ?_,
      fun hcls => ?_, fun hcls t => ⟨fun h => ?_, fun h => ?_⟩⟩⟩
    · rw [hread, mergeOutcome, hcls] <;> rfl
    · rw [hread, mergeOutcome, hcls, hmerged] <;> rfl
    · rw [hread, mergeOutcome, hcls, hmerged] <;> rfl
    · exact hread.trans (mergeOutcome_of_heavy hcls hmerged h)
    · exact hread.trans (mergeOutcome_of_heavy hcls hmerged h)

end Ends

end Sys2Proof.Machine

/-! ### What happens without a grant: no slot changes, nothing goes out, and no entry becomes one that has not begun -/

namespace Sys2Proof.Machine

open Sys2Proof.Safety

/-- Whether an entry has had no grant yet (R41): it is WAITING, HELD or READY. -/
def Entry.unstarted (e : Entry) : Bool :=
  match e.state with
  | .waiting | .held | .ready => true
  | _ => false

/-- The entries of the table that have had no grant yet. -/
def unstartedCount (s : State) : Nat := s.channel.table.countP Entry.unstarted

/-- From `s` to `t` no slot changes, nothing goes out, and no entry becomes one that has had no grant. -/
structure NoGrant (s t : State) : Prop where
  slots : t.media.slots = s.media.slots
  out : t.out = s.out
  unstarted : unstartedCount t ≤ unstartedCount s

namespace NoGrant

variable {s t u : State}

theorem refl (s : State) : NoGrant s s := ⟨rfl, rfl, le_rfl⟩

theorem trans (h : NoGrant s t) (h' : NoGrant t u) : NoGrant s u :=
  ⟨h'.slots.trans h.slots, h'.out.trans h.out, h'.unstarted.trans h.unstarted⟩

theorem of_outside (h : OutsidePatrol s t) : NoGrant s t := by
  refine ⟨h.slots, h.out, ?_⟩
  rw [unstartedCount, unstartedCount, h.channel]

/-- A change of the entries that gives none of them a state before its first grant. -/
theorem of_map {f : Entry → Entry} (hf : ∀ e, (f e).unstarted = true → e.unstarted = true) :
    NoGrant s { s with channel := { s.channel with table := s.channel.table.map f } } := by
  refine ⟨rfl, rfl, ?_⟩
  show (s.channel.table.map f).countP Entry.unstarted ≤ s.channel.table.countP Entry.unstarted
  rw [List.countP_map]
  exact List.countP_mono_left fun e _ => hf e

theorem setEntryState {tag : Tag} {st : EntryState} (hst : ∀ e : Entry, ({ e with state := st } : Entry).unstarted = false) :
    NoGrant s (setEntryState tag st s) :=
  of_map fun e he => by
    split at he
    · rw [hst e] at he
      cases he
    · exact he

theorem raise {k hostLine spare old values} : NoGrant s (raise k hostLine spare old values s) := of_outside raise_outside

theorem listSuspect {hostLine reason o} : NoGrant s (listSuspect hostLine reason o s) := by
  obtain ⟨l, n, c, h⟩ := listSuspect_eq hostLine reason o s
  rw [h]
  exact ⟨rfl, rfl, le_rfl⟩

theorem listTaken {hostLine o} : NoGrant s (listTaken hostLine o s) := by
  unfold Machine.listTaken
  split
  · exact listSuspect
  · exact refl s

theorem updateHead {f : Job → Job} : NoGrant s (updateHead f s) := by
  obtain ⟨q, h⟩ := updateHead_eq (s := s) f
  rw [h]
  exact ⟨rfl, rfl, le_rfl⟩

theorem lockTaken {hostLine : Nat} : NoGrant s (lockTaken hostLine s) := by
  refine trans (of_map fun e he => ?_) (of_outside (patrolSeesLock_outside hostLine))
  split at he
  · next h => simp [Entry.unstarted, h.2]
  · exact he

theorem lockReleased {hostLine : Nat} : NoGrant s (lockReleased hostLine s) := of_map fun e he => by
  split at he
  · next h => simp [Entry.unstarted, h.2]
  · exact he

theorem enqueue {hostLine o data tag} : NoGrant s (enqueue hostLine o data tag s) :=
  trans (t := { s with queue := s.queue ++ [newJob s hostLine o data tag] }) ⟨rfl, rfl, le_rfl⟩ lockTaken

theorem countFailed : NoGrant s (countFailed s) := ⟨rfl, rfl, le_rfl⟩

theorem bufferRequest {hostLine o data tag} : NoGrant s (bufferRequest hostLine o data tag s).2 := by
  rcases bufferRequest_cases hostLine o data tag s with h | ⟨-, -, ⟨-, h⟩ | ⟨-, -, h⟩⟩
  · rw [h]
    exact refl s
  · rw [h]
    exact ⟨rfl, rfl, le_rfl⟩
  · rw [h]
    exact enqueue

theorem fetchRequest {hostLine o} : NoGrant s (fetchRequest hostLine o s).2 := by
  rcases fetchRequest_cases hostLine o s with h | ⟨-, -, ⟨-, h⟩ | ⟨-, -, h⟩⟩
  · rw [h]
    exact refl s
  · rw [h]
    exact refl s
  · rw [h]
    exact enqueue

theorem drainCheck : NoGrant s (drainCheck s) := by
  unfold Machine.drainCheck
  split
  · exact trans (t := { s with opState := .quiet }) ⟨rfl, rfl, le_rfl⟩ (of_outside raise_outside)
  · exact refl s

theorem promote : NoGrant s (promote s) := by
  unfold Machine.promote
  split
  · split
    · exact fetchRequest
    · exact refl s
  · exact refl s

theorem dequeue : NoGrant s (dequeue s) := by
  unfold Machine.dequeue
  split
  · exact refl s
  · next j rest _ => exact trans (t := { s with queue := rest }) ⟨rfl, rfl, le_rfl⟩ lockReleased

theorem handBack {j : Job} : NoGrant s (handBack j s) := by
  unfold Machine.handBack
  split
  · refine trans (of_map (s := s) fun e he => ?_) (of_outside (patrolSeesWrite_outside j.hostLine))
    unfold handedBack at he
    split at he
    · split at he
      · simp [Entry.unstarted] at he
      · exact he
    · exact he
  · exact refl s

theorem endFailed : NoGrant s (endFailed s) := by
  unfold Machine.endFailed
  split
  · exact refl s
  · next j _ _ =>
    have hrelease : NoGrant s (releaseSpare j s) := by
      unfold releaseSpare
      split <;> exact ⟨rfl, rfl, le_rfl⟩
    unfold raiseRetireFailedJournal
    exact hrelease.trans (raise.trans (listSuspect.trans (countFailed.trans
      (handBack.trans (dequeue.trans drainCheck)))))

theorem endUnplaced {notice : Nat → State → State} (h : ∀ n t, NoGrant t (notice n t)) :
    NoGrant s (endUnplaced notice s) := by
  unfold Machine.endUnplaced
  split
  · exact refl s
  · exact (h _ s).trans (listSuspect.trans (countFailed.trans
      (handBack.trans (dequeue.trans (promote.trans drainCheck)))))

theorem enterPlacing : NoGrant s (enterPlacing s) := by
  unfold Machine.enterPlacing
  split
  · exact refl s
  · next spare _ _ =>
    have hreserved : NoGrant s
        (Machine.updateHead (fun j => { j with state := .placing, reserved := some spare, attempts := j.attempts + 1 })
          (setSpare spare .reserved s)) :=
      trans (t := setSpare spare .reserved s) ⟨rfl, rfl, le_rfl⟩ updateHead
    dsimp only
    split
    · exact hreserved.trans raise
    · exact hreserved
  · exact endUnplaced fun _ _ => raise

theorem examineHead (n : Nat) (s : State) : NoGrant s (examineHead n s) := by
  induction n generalizing s with
  | zero => exact refl s
  | succ n ih =>
    unfold Machine.examineHead
    split
    · exact refl s
    · split_ifs
      · exact refl s
      · exact endFailed.trans (ih _)
      · exact refl s
      · split
        · exact updateHead
        · exact enterPlacing.trans (ih _)

theorem examineLine {hostLine : Nat} : NoGrant s (examineLine hostLine s) := by
  unfold Machine.examineLine
  split
  · split
    · exact examineHead _ s
    · exact refl s
  · exact refl s

theorem passToRetiring {e : Entry} {ctx : Context} : NoGrant s (passToRetiring e ctx s) :=
  (setEntryState fun _ => rfl).trans examineLine

end NoGrant

end Sys2Proof.Machine

/-! ### The grants of an event run out (O38) -/

namespace Sys2Proof.Machine

open Sys2Proof.Safety

section RunOut

variable {s t : State} {id : SlotId} {e : Entry} {w : Winner}

/-- The FREE slots. -/
def freeCount (s : State) : Nat := s.media.slots.toList.count .free

/-- What each grant lowers: the FREE slots, and the entries that have had no grant. -/
def grantsLeft (s : State) : Nat := freeCount s + unstartedCount s

theorem freeCount_setSlot {r : SlotRecord} (hfree : s.media.slots[id.val] = .free) :
    freeCount (setSlot id (.issued r) s) < freeCount s := by
  have hlen : id.val < s.media.slots.toList.length := by simp
  have hget : s.media.slots.toList[id.val] = .free := by rw [Vector.getElem_toList]; exact hfree
  have hpos : 0 < s.media.slots.toList.count .free :=
    List.count_pos_iff.mpr (hget ▸ List.getElem_mem hlen)
  have hset : freeCount (setSlot id (.issued r) s) = freeCount s - 1 := by
    simp only [freeCount, setSlot, Vector.toList_set]
    rw [List.count_set hlen, hget]
    rfl
  rw [hset]
  exact Nat.sub_lt hpos Nat.one_pos

theorem NoGrant.freeCount (h : NoGrant s t) : freeCount t = freeCount s := by
  unfold Machine.freeCount
  rw [h.slots]

/-- A chain of changes without a grant, and then an issue in a FREE slot. -/
theorem grantsLeft_issueRead {line : Nat} {owner : Owner} (h : NoGrant s t) (hfree : s.media.slots[id.val] = .free) :
    grantsLeft (issueRead id line owner t) < grantsLeft s := by
  have hslot : t.media.slots[id.val] = .free := by rw [h.slots]; exact hfree
  have hless := h.freeCount ▸ freeCount_setSlot (r := { op := .read, line := line, owner := owner, timer := 0 }) hslot
  exact Nat.add_lt_add_of_lt_of_le hless h.unstarted

theorem grantsLeft_issueWrite {line : Nat} {data : LineData} {owner : Owner} (h : NoGrant s t)
    (hfree : s.media.slots[id.val] = .free) : grantsLeft (issueWrite id line data owner t) < grantsLeft s := by
  have hslot : t.media.slots[id.val] = .free := by rw [h.slots]; exact hfree
  have hless := h.freeCount ▸
    freeCount_setSlot (r := { op := .write (encode data) 1, line := line, owner := owner, timer := 0 }) hslot
  exact Nat.add_lt_add_of_lt_of_le hless h.unstarted

theorem NoGrant.countPassedOver : NoGrant s (countPassedOver s) := by
  unfold Machine.countPassedOver
  split
  · exact ⟨rfl, rfl, le_rfl⟩
  · exact refl s

theorem NoGrant.executing {ctx : Context} : NoGrant s (Machine.setEntryState e.tag (.executing ctx) s) :=
  setEntryState fun _ => rfl

theorem NoGrant.patrolSeesWrite {hostLine : Nat} : NoGrant s (Machine.patrolSeesWrite hostLine s) :=
  of_outside (patrolSeesWrite_outside hostLine)

/-- The first grant of an entry leaves one entry fewer without a grant. -/
theorem unstartedCount_executing {ctx : Context} (he : e ∈ s.channel.table) (hst : e.state = .ready) :
    unstartedCount (setEntryState e.tag (.executing ctx) s) < unstartedCount s := by
  obtain ⟨older, younger, htable⟩ := List.append_of_mem he
  have hparts : ∀ l : List Entry,
      (l.map fun x => if x.tag = e.tag then { x with state := .executing ctx } else x).countP Entry.unstarted ≤
        l.countP Entry.unstarted := fun l => by
    rw [List.countP_map]
    refine List.countP_mono_left fun x _ hx => ?_
    by_cases htag : x.tag = e.tag
    · simp [htag, Entry.unstarted] at hx
    · simpa [htag] using hx
  have hbegun : ({ e with state := .executing ctx } : Entry).unstarted = false := rfl
  have hready : e.unstarted = true := by rw [Entry.unstarted, hst]
  simp only [unstartedCount, setEntryState, updateEntry, htable, List.map_append, List.map_cons, List.countP_append,
    List.countP_cons, if_true, hbegun, hready]
  have := hparts older
  have := hparts younger
  grind

theorem grantsLeft_beginWrite {ctx : Context} (h : NoGrant s t) (hfree : s.media.slots[id.val] = .free) :
    grantsLeft (beginWrite id e ctx t) < grantsLeft s :=
  grantsLeft_issueWrite (h.trans NoGrant.executing) hfree

theorem grantsLeft_firstWriteGrant {data : LineData} (hfree : s.media.slots[id.val] = .free) (he : e ∈ s.channel.table)
    (hst : e.state = .ready) : grantsLeft (firstWriteGrant id e data s) < grantsLeft s := by
  unfold firstWriteGrant
  dsimp only
  have hstarted : ∀ ctx, NoGrant s (patrolSeesWrite e.hostLine (setEntryState e.tag (.executing ctx) s)) := fun ctx =>
    NoGrant.executing.trans NoGrant.patrolSeesWrite
  split
  · split
    · next t hb => exact grantsLeft_beginWrite ((hstarted _).trans (hb ▸ NoGrant.bufferRequest)) hfree
    · next t _ hb =>
      have hrest := (NoGrant.patrolSeesWrite.trans (hb ▸ NoGrant.bufferRequest)).trans
        (NoGrant.passToRetiring (e := e) (ctx := newContext s e .write (some data)))
      exact Nat.add_lt_add_of_le_of_lt (Nat.le_of_eq hrest.freeCount)
        (Nat.lt_of_le_of_lt hrest.unstarted (unstartedCount_executing he hst))
  · exact grantsLeft_beginWrite (hstarted _) hfree

theorem patrolClaims_iff :
    patrolClaims s = true ↔
      ∃ st, s.patrol.step = some st ∧ (st.state = .waiting ∨ ∃ d, st.state = .writingBack d false) := by
  unfold patrolClaims
  split
  · next h => simp [h]
  · next h => simp [h]
  · next hw hb =>
    constructor
    · nofun
    · rintro ⟨⟨line, sweep, state, media, mark⟩, hstep, rfl | ⟨d, rfl⟩⟩
      · exact absurd hstep (hw line sweep media mark)
      · exact absurd hstep (hb line sweep d media mark)

theorem patrolClaims_of_winner (h : winner s = some .patrol) : patrolClaims s = true := by
  unfold winner at h
  split at h
  · cases h
  · split at h
    · cases h
    · split at h
      · next hp => exact hp.1
      · split at h
        · cases h
        · split at h
          · assumption
          · cases h

theorem hostClaim_of_winner (h : winner s = some (.host e)) : hostClaim s = some e := by
  unfold winner at h
  split at h
  · cases h
  · split at h
    · cases h
    · split at h
      · cases h
      · split at h
        · next hclaim =>
          cases h
          exact hclaim
        · split at h <;> cases h

theorem grantsLeft_hostGrant (hfree : s.media.slots[id.val] = .free) (he : e ∈ s.channel.table)
    (hclaims : entryClaims s e = true) : grantsLeft (hostGrant id e s) < grantsLeft s := by
  have hpassed : NoGrant s (countPassedOver s) := NoGrant.countPassedOver
  have hslot : (countPassedOver s).media.slots[id.val] = .free := by rw [hpassed.slots]; exact hfree
  have hle : grantsLeft (countPassedOver s) ≤ grantsLeft s :=
    Nat.add_le_add (Nat.le_of_eq hpassed.freeCount) hpassed.unstarted
  have he' : e ∈ (countPassedOver s).channel.table := by
    unfold countPassedOver
    split <;> exact he
  refine Nat.lt_of_lt_of_le ?_ hle
  unfold hostGrant
  split
  case h_1 hst =>
    unfold firstGrant
    split
    · exact grantsLeft_issueRead NoGrant.executing hslot
    · exact grantsLeft_firstWriteGrant hslot he' hst
    · split
      · exact grantsLeft_firstWriteGrant hslot he' hst
      · exact grantsLeft_issueRead (NoGrant.executing.trans NoGrant.patrolSeesWrite) hslot
  case h_2 ctx _ =>
    unfold laterGrant
    split
    · exact grantsLeft_issueRead (NoGrant.refl _) hslot
    · exact grantsLeft_beginWrite (NoGrant.refl _) hslot
  case h_3 hready hexecuting =>
    unfold entryClaims at hclaims
    split at hclaims
    · next h => exact absurd h hready
    · next ctx h => exact absurd h (hexecuting ctx)
    · cases hclaims

theorem grantsLeft_patrolGrant (hfree : s.media.slots[id.val] = .free) (hclaims : patrolClaims s = true) :
    grantsLeft (patrolGrant id s) < grantsLeft s := by
  obtain ⟨st, hstep, hstate⟩ := patrolClaims_iff.mp hclaims
  unfold patrolGrant
  rw [hstep]
  rcases hstate with hstate | ⟨d, hstate⟩
  · dsimp only
    rw [hstate]
    exact grantsLeft_issueRead (t := { s with media := _, patrol := _ }) ⟨rfl, rfl, le_rfl⟩ hfree
  · dsimp only
    rw [hstate]
    exact grantsLeft_issueWrite (t := { s with media := _, patrol := _ }) ⟨rfl, rfl, le_rfl⟩ hfree

/-- Each grant lowers what is left to grant. -/
theorem grantsLeft_grant (hid : lowestFreeSlot s = some id) (hw : winner s = some w) :
    grantsLeft (grant id w s) < grantsLeft s := by
  have hfree := (free_of_lowestFreeSlot hid).1
  have hissue : ∀ r owner, grantsLeft (issue id r owner s) < grantsLeft s := fun r owner => by
    cases r with
    | read line => exact grantsLeft_issueRead (NoGrant.refl s) hfree
    | write line data => exact grantsLeft_issueWrite (NoGrant.refl s) hfree
  cases w with
  | journal r => exact hissue r .journal
  | retirement r => exact hissue r .retirement
  | patrol => exact grantsLeft_patrolGrant hfree (patrolClaims_of_winner hw)
  | host e =>
    have hclaim := hostClaim_of_winner hw
    have hclaims := List.find?_some hclaim
    rw [Bool.and_eq_true] at hclaims
    exact grantsLeft_hostGrant hfree (List.mem_of_find?_eq_some hclaim) hclaims.1

/-- As many grants as are left lead to a state with no FREE slot or no claim. -/
theorem grantLoop_exhausts (n : Nat) (s : State) (h : grantsLeft s ≤ n) :
    (∀ id : SlotId, (grantLoop n s).media.slots[id.val] ≠ .free) ∨ winner (grantLoop n s) = none := by
  cases hid : lowestFreeSlot s with
  | none =>
    rw [grantLoop_of_busy hid]
    exact .inl (lowestFreeSlot_eq_none_iff.mp hid)
  | some id =>
    cases hw : winner s with
    | none =>
      rw [grantLoop_of_noClaim hw]
      exact .inr hw
    | some w =>
      have hless := grantsLeft_grant hid hw
      cases n with
      | zero => omega
      | succ n =>
        rw [grantLoop_of_grant hid hw]
        exact grantLoop_exhausts n _ (by omega)

/-- Settles O38, by the FREE slots and the entries without a grant, at most 8 and 32 of them. -/
theorem grantsRunOut : Obligations.GrantsRunOut := by
  intro s htable
  refine grantLoop_exhausts 48 s ?_
  have hfree : freeCount s ≤ 8 := (List.count_le_length).trans (by simp)
  have hentries : unstartedCount s ≤ s.channel.table.length := List.countP_le_length
  unfold grantsLeft
  omega

end RunOut

end Sys2Proof.Machine

/-! ### What the grant of a host claim does (O36) -/

namespace Sys2Proof.Machine

open Sys2Proof.Safety

section HostGrant

variable {s : State} {e : Entry} {id : SlotId} {ctx : Context} {data : LineData} {hostLine : Nat}

/-- A write phase that begins, where verify owed is known (R69). -/
theorem beginWrite_eq {owed : Bool} (howed : owesVerify s e.hostLine ctx.returned = owed)
    (hdata : ctx.lineData = some data) :
    beginWrite id e ctx s =
      issueWrite id ctx.mediaLine data (.host e.tag)
        (setEntryState e.tag (.executing { ctx with phase := .write, verifyOwed := owed }) s) := by
  rw [beginWrite, howed, writtenData_eq hdata]

theorem bufferRequest_of_answer_refused {o : Origin} {tag : Option Tag} {t : State}
    (h : bufferRequest hostLine o data tag s = (.refused, t)) : t = s := by
  rcases bufferRequest_cases hostLine o data tag s with hr | ⟨-, -, ⟨-, hr⟩ | ⟨-, -, hr⟩⟩
  · exact (congrArg Prod.snd (h.symm.trans hr))
  · cases congrArg Prod.fst (h.symm.trans hr)
  · cases congrArg Prod.fst (h.symm.trans hr)

/-- The state in which the first grant of a write leaves the entry and the patrol, before the write or the job request. -/
def begunWrite (e : Entry) (ctx : Context) (s : State) : State :=
  patrolSeesWrite e.hostLine (setEntryState e.tag (.executing ctx) s)

theorem begunWrite_outside : OutsidePatrol (setEntryState e.tag (.executing ctx) s) (begunWrite e ctx s) :=
  patrolSeesWrite_outside e.hostLine

theorem isListed_begunWrite : isListed (begunWrite e ctx s) hostLine = isListed s hostLine := by
  rw [isListed, isListed, suspectOf, suspectOf, begunWrite_outside.suspects]
  rfl

theorem owesVerify_begunWrite {returned : Bool} :
    owesVerify (begunWrite e ctx s) hostLine returned = owesVerify s hostLine returned := by
  rw [owesVerify, owesVerify, isListed_begunWrite, begunWrite_outside.settings]
  rfl

theorem retiresOnWrite_begunWrite : retiresOnWrite (begunWrite e ctx s) hostLine = retiresOnWrite s hostLine := by
  rw [retiresOnWrite, retiresOnWrite, suspectOf, suspectOf, begunWrite_outside.suspects, begunWrite_outside.settings]
  rfl

/-- The context of an entry at the first grant of its write (R64, R68). -/
def writeContext (s : State) (e : Entry) (data : LineData) : Context :=
  ⟨translate s e.hostLine, .write, false, false, some data⟩

theorem firstWriteGrant_of_writes (h : retiresOnWrite s e.hostLine = false) {owed : Bool}
    (howed : owesVerify s e.hostLine false = owed) :
    firstWriteGrant id e data s =
      issueWrite id (writeContext s e data).mediaLine data (.host e.tag)
        (setEntryState e.tag (.executing { writeContext s e data with verifyOwed := owed })
          (begunWrite e (writeContext s e data) s)) := by
  have hno : ¬ retiresOnWrite (begunWrite e (writeContext s e data) s) e.hostLine = true := by
    rw [retiresOnWrite_begunWrite, h]
    exact Bool.false_ne_true
  refine (if_neg hno).trans ?_
  exact beginWrite_eq (ctx := writeContext s e data) (owesVerify_begunWrite.trans howed) rfl

theorem firstWriteGrant_of_asks (h : retiresOnWrite s e.hostLine = true) :
    firstWriteGrant id e data s =
      match bufferRequest e.hostLine .hostWrite data (some e.tag) (begunWrite e (writeContext s e data) s) with
      | (.refused, t) => beginWrite id e (writeContext s e data) t
      | (_, t) => passToRetiring e (writeContext s e data) t := by
  have hyes : retiresOnWrite (begunWrite e (writeContext s e data) s) e.hostLine = true := by
    rw [retiresOnWrite_begunWrite, h]
  exact (if_pos hyes).trans rfl

/-- Settles O36, by the entry's state, its request and the answer to its job request. -/
theorem hostGrantsIssue : Obligations.HostGrantsIssue := by
  intro id e s counted patrolWaits hwaits hidle line granted listed listedLost passes reads writes begins owed
  have hcounted : countPassedOver s = counted := by
    by_cases hclaims : patrolClaims s = true
    · exact (if_pos hclaims).trans (hwaits (patrolClaims_iff.mp hclaims)).symm
    · exact (if_neg hclaims).trans (hidle fun h => hclaims (patrolClaims_iff.mpr h)).symm
  obtain ⟨k, hk⟩ : ∃ k, counted = { s with media := { s.media with passedOver := k } } := by
    rw [← hcounted]
    unfold countPassedOver
    split
    · exact ⟨_, rfl⟩
    · exact ⟨s.media.passedOver, rfl⟩
  have howed : owesVerify counted e.hostLine false = owed := by
    have hlisted : isListed s e.hostLine = decide listed := by
      rw [Bool.eq_iff_iff, isListed_iff, decide_eq_true_iff]
    rw [hk]
    show (false || (isListed s e.hostLine && s.settings.verifyWrites)) = _
    rw [Bool.false_or, hlisted]
  have hcontext : ∀ phase data, newContext counted e phase data = ⟨line, phase, false, false, data⟩ := fun _ _ => by
    rw [hk]
    rfl
  have hretires : retiresOnWrite counted e.hostLine = true ↔ listedLost ∧ s.settings.autoRetire = true := by
    rw [hk]
    show (s.settings.autoRetire && ((suspectOf s e.hostLine).map Suspect.reason == some .lost)) = true ↔ _
    rw [Bool.and_eq_true, beq_iff_eq, and_comm]
  have first : e.state = .ready → granted = firstGrant id e counted := fun hst => by
    show hostGrant id e s = _
    rw [hostGrant, hst, hcounted]
  have later : ∀ ctx, e.state = .executing ctx → granted = laterGrant id e ctx counted := fun ctx hst => by
    show hostGrant id e s = _
    rw [hostGrant, hst, hcounted]
  refine ⟨fun hst => ⟨fun hrequest => ?read, fun data hrequest => ?write, fun data mask hrequest hmask => ?masked⟩,
    fun ctx hst => ⟨fun hphase => ?verify, fun data hdata hphase => ⟨fun hreturned => ?again, fun hreturned => ?returned⟩⟩⟩
  case read =>
    rw [first hst, firstGrant, hrequest]
    exact congrArg (fun ctx => issueRead id ctx.mediaLine (.host e.tag) (setEntryState e.tag (.executing ctx) counted))
      (hcontext _ _)
  case masked =>
    rw [first hst, firstGrant, hrequest]
    refine (if_neg hmask).trans ?_
    exact congrArg (fun ctx => issueRead id ctx.mediaLine (.host e.tag) (begunWrite e ctx counted)) (hcontext _ _)
  case verify =>
    rw [later ctx hst, laterGrant, hphase] <;> rfl
  case again =>
    have hlater : granted = beginWrite id e ctx counted := by
      refine (later ctx hst).trans ?_
      unfold laterGrant
      split
      · next h => exact absurd h hphase
      · rw [if_neg (by simp [hreturned])]
    rw [hlater, beginWrite_eq (hreturned ▸ howed) hdata] <;> rfl
  case returned =>
    have hlater : granted = beginWrite id e { ctx with mediaLine := translate counted e.hostLine } counted := by
      refine (later ctx hst).trans ?_
      unfold laterGrant
      split
      · next h => exact absurd h hphase
      · rw [if_pos hreturned]
    have howed' : owesVerify counted e.hostLine ctx.returned = true := by rw [hreturned]; rfl
    rw [hlater, beginWrite_eq (ctx := { ctx with mediaLine := translate counted e.hostLine }) howed' hdata, hk] <;> rfl
  case write =>
    have hgranted : granted = firstWriteGrant id e data counted := by
      rw [first hst, firstGrant]
      rcases hrequest with h | h
      · rw [h]
      · rw [h]
        exact if_pos rfl
    intro ctx
    have hctx : writeContext counted e data = ctx := hcontext _ _
    refine ⟨fun h => ?writes, fun hlost hauto => ?asks⟩
    case writes =>
      have hno : retiresOnWrite counted e.hostLine = false := Bool.eq_false_iff.mpr fun hyes => by
        obtain ⟨hlost, hauto⟩ := hretires.mp hyes
        rcases h with h | h
        · exact h hlost
        · simp [h] at hauto
      rw [hgranted, firstWriteGrant_of_writes hno howed, hctx] <;> rfl
    case asks =>
      have asked := hgranted.trans (firstWriteGrant_of_asks (hretires.mpr ⟨hlost, hauto⟩))
      rw [hctx] at asked
      refine ⟨fun answer t (hb : bufferRequest e.hostLine .hostWrite data (some e.tag) (begunWrite e ctx counted) = _) => ?_,
        fun hstate hjournal hqueue hroom hfree => ?_⟩
      · rw [hb] at asked
        refine ⟨fun ha => ?_, fun ha => ?_⟩
        · subst ha
          have howed' : owesVerify t e.hostLine ctx.returned = owed :=
            bufferRequest_of_answer_refused hb ▸ owesVerify_begunWrite.trans howed
          exact asked.trans (beginWrite_eq howed' rfl)
        · have taken : granted = passToRetiring e ctx t := by
            rw [asked]
            rcases ha with rfl | rfl <;> rfl
          have hanswer : NoGrant (begunWrite e ctx counted) t := by
            have h := NoGrant.bufferRequest (s := begunWrite e ctx counted) (hostLine := e.hostLine) (o := .hostWrite)
              (data := data) (tag := some e.tag)
            rwa [hb] at h
          have hnone : NoGrant s granted := by
            rw [taken]
            exact (hcounted ▸ NoGrant.countPassedOver).trans (NoGrant.executing.trans (NoGrant.patrolSeesWrite.trans
              (hanswer.trans NoGrant.passToRetiring)))
          exact ⟨taken, hnone.slots, hnone.out⟩
      · have hbegun := begunWrite_outside (s := counted) (e := e) (ctx := ctx)
        have hjobs : (begunWrite e ctx counted).queue = s.queue := by rw [hbegun.queue, hk, setEntryState_queue]
        have takes : Takes (begunWrite e ctx counted) e.hostLine := by
          refine ⟨?_, hjobs ▸ hqueue, hjobs ▸ hroom, hjobs ▸ hfree⟩
          rw [Refusing, hbegun.opState, hbegun.journal, hk, setEntryState_opState, setEntryState_journal]
          exact fun h => h.elim (fun h => h hstate) hjournal
        rw [takes.bufferRequest] at asked
        have taken : granted = setEntryState e.tag (.retiring ctx)
            (enqueue e.hostLine .hostWrite (some data) (some e.tag) (begunWrite e ctx counted)) :=
          asked.trans (takes.examineLine enqueue_queue)
        refine ⟨⟨newJob (begunWrite e ctx counted) e.hostLine .hostWrite (some data) (some e.tag), ?_, rfl, rfl, rfl, rfl⟩,
          fun x hx htag => state_of_mem_setEntryState (taken ▸ hx) htag⟩
        rw [taken, setEntryState_queue, enqueue_queue, hjobs]

end HostGrant

end Sys2Proof.Machine

/-! ### A patrol step from its grants to its end (O39) -/

namespace Sys2Proof.Machine

open Sys2Proof.Safety

section PatrolStep

variable {s : State} {st : PatrolStep} {hostLine : Nat} {d : LineData} {o : DecodeOutcome} {id : SlotId}

theorem writes_iff {r : Request} : r.writes = true ↔ r ≠ .read := by cases r <;> simp [Request.writes]

/-- A host write of the line is EXECUTING or in flight as residual (R161, R164). -/
def HostWrites (s : State) (hostLine : Nat) : Prop :=
  (∃ e ∈ s.channel.table, e.hostLine = hostLine ∧ e.request ≠ .read ∧ ∃ ctx, e.state = .executing ctx) ∨
    ∃ x ∈ s.channel.residuals, x.hostLine = hostLine ∧ x.op = .write

theorem markAtIssue_iff : markAtIssue s hostLine = true ↔ HostWrites s hostLine := by
  simp [markAtIssue, HostWrites, hasExecutingWrite, hasResidualWrite, isExecuting_iff, writes_iff, and_assoc]

/-- The writeback of the step is suppressed at a mark, a host write, a lock or outside READY (R164). -/
theorem writebackSuppressed_iff :
    writebackSuppressed st s = true ↔
      st.mark = true ∨ HostWrites s st.hostLine ∨ (∃ j ∈ s.queue, j.hostLine = st.hostLine) ∨ s.opState ≠ .ready := by
  rw [← markAtIssue_iff, ← isLocked_iff]
  simp [writebackSuppressed, markAtIssue, or_assoc]

/-! #### What the step sees -/

section InFlight

variable (hstep : s.patrol.step = some st)
include hstep

/-- A step that ends skipped is counted, and tallied where its sweep is the current one (R164, R167). -/
theorem skipStep_of_step :
    skipStep s =
      endStep
        { s with
          patrol :=
            { s.patrol with
              tallies :=
                if st.sweep = s.patrol.sweep then
                  { s.patrol.tallies with skipped := satInc s.patrol.tallies.skipped }
                else s.patrol.tallies }
          counters := { s.counters with patrolSkipped := satInc s.counters.patrolSkipped } } := by
  have hskip : skipStep s =
      endStep (if st.sweep = s.patrol.sweep then tallySkipped (countSkipped s) else countSkipped s) := by
    simp only [skipStep, hstep]
  rw [hskip]
  refine congrArg endStep ?_
  split <;> rfl

theorem withdrawPatrol_of_step :
    withdrawPatrol s =
      endStep
        { s with
          media := { s.media with passedOver := 0 }
          patrol :=
            { s.patrol with
              tallies :=
                if st.sweep = s.patrol.sweep then
                  { s.patrol.tallies with skipped := satInc s.patrol.tallies.skipped }
                else s.patrol.tallies }
          counters := { s.counters with patrolSkipped := satInc s.counters.patrolSkipped } } :=
  skipStep_of_step (s := { s with media := { s.media with passedOver := 0 } }) hstep

theorem setMark_of_step : setMark s = { s with patrol := { s.patrol with step := some { st with mark := true } } } := by
  rw [setMark, hstep]
  rfl

theorem markStep_of_waiting (hst : st.state = .waiting) : markStep s = s := by
  obtain ⟨line, sweep, state, media, mark⟩ := st
  cases hst
  simp only [markStep, hstep]

theorem markStep_of_issued (hst : st.state = .reading ∨ ∃ d, st.state = .writingBack d true) : markStep s = setMark s := by
  obtain ⟨line, sweep, state, media, mark⟩ := st
  rcases hst with h | ⟨d, h⟩ <;> cases h <;> simp only [markStep, hstep, if_true]

theorem markStep_of_claim (hst : st.state = .writingBack d false) : markStep s = withdrawPatrol s := by
  obtain ⟨line, sweep, state, media, mark⟩ := st
  cases hst
  simp only [markStep, hstep, Bool.false_eq_true, if_false]

theorem patrolSeesQuiesce_of_claim (hst : st.state = .writingBack d false) : patrolSeesQuiesce s = withdrawPatrol s := by
  obtain ⟨line, sweep, state, media, mark⟩ := st
  cases hst
  simp only [patrolSeesQuiesce, hstep, Bool.false_eq_true, if_false]

theorem patrolSeesQuiesce_of_no_claim (hst : ∀ d, st.state ≠ .writingBack d false) : patrolSeesQuiesce s = s := by
  obtain ⟨line, sweep, state, media, mark⟩ := st
  rcases state with _ | _ | ⟨d, _ | _⟩
  · simp only [patrolSeesQuiesce, hstep]
  · simp only [patrolSeesQuiesce, hstep]
  · exact absurd rfl (hst d)
  · simp only [patrolSeesQuiesce, hstep, if_true]

theorem patrolSeesWrite_of_line (hline : st.hostLine = hostLine) : patrolSeesWrite hostLine s = markStep s := by
  simp only [patrolSeesWrite, hstep, if_pos hline]

theorem patrolSeesLock_of_waiting (hline : st.hostLine = hostLine) (hst : st.state = .waiting) :
    patrolSeesLock hostLine s = withdrawPatrol s := by
  simp only [patrolSeesLock, hstep, if_pos hline, if_pos hst]

theorem patrolSeesLock_of_begun (hline : st.hostLine = hostLine) (hst : st.state ≠ .waiting) :
    patrolSeesLock hostLine s = markStep s := by
  simp only [patrolSeesLock, hstep, if_pos hline, if_neg hst]

theorem patrolSees_of_other (hline : st.hostLine ≠ hostLine) :
    patrolSeesLock hostLine s = s ∧ patrolSeesWrite hostLine s = s := by
  simp only [patrolSeesLock, patrolSeesWrite, hstep, if_neg hline, and_self]

/-! #### The end of the step -/

theorem endStep_of_step :
    endStep s =
      if st.sweep = s.patrol.sweep then advanceCursor { s with patrol := { s.patrol with step := none } }
      else { s with patrol := { s.patrol with step := none } } := by
  simp only [endStep, hstep]

end InFlight

theorem endStep_of_none (h : s.patrol.step = none) : endStep s = s := by simp only [endStep, h]

/-! #### Grants and results -/

theorem tallyOutcome_eq (c : DecodeClass) :
    tallyOutcome st c s =
      { s with
        patrol :=
          { s.patrol with
            tallies := if st.sweep = s.patrol.sweep then tallyClass c s.patrol.tallies else s.patrol.tallies } } := by
  unfold tallyOutcome
  split <;> rfl

section Told

variable {r : MediaResult} (hstep : s.patrol.step = some st)
include hstep

theorem patrolResult_of_read (hst : st.state = .reading) : patrolResult (.read o d) s = patrolRead st o d s := by
  obtain ⟨line, sweep, state, media, mark⟩ := st
  cases hst
  simp only [patrolResult, hstep]

theorem patrolResult_of_timeout (hst : st.state = .reading) : patrolResult .timeout s = endStep s := by
  obtain ⟨line, sweep, state, media, mark⟩ := st
  cases hst
  simp only [patrolResult, hstep]

theorem patrolResult_of_writeback {issued : Bool} (hst : st.state = .writingBack d issued) :
    patrolResult r s = writebackResult st r s := by
  obtain ⟨line, sweep, state, media, mark⟩ := st
  cases hst
  simp only [patrolResult, hstep]

theorem patrolGrant_of_waiting (hst : st.state = .waiting) :
    patrolGrant id s =
      issueRead id (translate s st.hostLine) .patrol
        { s with
          media := { s.media with passedOver := 0 }
          patrol :=
            { s.patrol with
              step :=
                some { st with state := .reading, mediaLine := some (translate s st.hostLine),
                               mark := markAtIssue s st.hostLine } } } := by
  obtain ⟨line, sweep, state, media, mark⟩ := st
  cases hst
  simp only [patrolGrant, hstep]

theorem patrolGrant_of_writeback {issued : Bool} {media : Nat} (hst : st.state = .writingBack d issued)
    (hmedia : st.mediaLine = some media) :
    patrolGrant id s =
      issueWrite id media d .patrol
        { s with
          media := { s.media with passedOver := 0 }
          patrol := { s.patrol with step := some { st with state := .writingBack d true } } } := by
  obtain ⟨line, sweep, state, media', mark⟩ := st
  cases hst
  cases hmedia
  simp only [patrolGrant, hstep, Option.getD_some]

end Told

theorem decideWriteback_of_step (hstep : s.patrol.step = some st) :
    decideWriteback d s =
      if writebackSuppressed st s then skipStep s
      else { s with patrol := { s.patrol with step := some { st with state := .writingBack d false } } } := by
  simp only [decideWriteback, hstep]

/-- Settles O39, by the state of the step. -/
theorem patrolStepRuns : Obligations.PatrolStepRuns := by
  refine ⟨fun h s => ⟨fun hnone => ?none, fun st hstep => ?sees⟩, fun s => ⟨endStep_of_none, fun st hstep => ?ends⟩,
    fun id st o d s hstep => ?runs⟩
  case none =>
    obtain ⟨hwrite, hlock, hquiesce⟩ := patrolSees_idle hnone h
    exact ⟨hlock, hwrite, hquiesce⟩
  case sees =>
    intro p marked withdrawn
    have hmark : setMark s = marked := setMark_of_step hstep
    have hwithdraw : withdrawPatrol s = withdrawn := withdrawPatrol_of_step hstep
    refine ⟨patrolSees_of_other hstep, fun hline => ⟨fun hst => ⟨?_, ?_⟩, fun hst => ⟨?_, ?_⟩, fun d hst => ⟨?_, ?_⟩⟩,
      fun d hst => (patrolSeesQuiesce_of_claim hstep hst).trans hwithdraw, patrolSeesQuiesce_of_no_claim hstep⟩
    · exact (patrolSeesLock_of_waiting hstep hline hst).trans hwithdraw
    · exact (patrolSeesWrite_of_line hstep hline).trans (markStep_of_waiting hstep hst)
    · have hbegun : st.state ≠ .waiting := by rcases hst with h | ⟨d, h⟩ <;> simp [h]
      rw [patrolSeesLock_of_begun hstep hline hbegun, markStep_of_issued hstep hst, hmark]
    · rw [patrolSeesWrite_of_line hstep hline, markStep_of_issued hstep hst, hmark]
    · rw [patrolSeesLock_of_begun hstep hline (by simp [hst]), markStep_of_claim hstep hst, hwithdraw]
    · rw [patrolSeesWrite_of_line hstep hline, markStep_of_claim hstep hst, hwithdraw]
  case ends =>
    intro p moved removed
    have hend := endStep_of_step hstep
    refine ⟨fun hsweep => hend.trans (if_neg hsweep), fun hsweep hmoved => ?_, fun hsweep hmoved => ?_⟩
    · exact hend.trans ((if_pos hsweep).trans (if_neg (Nat.not_lt.mpr hmoved)))
    · exact hend.trans ((if_pos hsweep).trans (if_pos hmoved))
  case runs =>
    intro p line hostWrites current told tallied read
    refine ⟨fun hst => ?waiting, fun hst => ?reading, fun data issued hst => ?writeback⟩
    case waiting =>
      refine ⟨_, patrolGrant_of_waiting hstep hst, rfl, ?_, rfl, rfl, markAtIssue s st.hostLine, rfl, markAtIssue_iff⟩
      exact Vector.getElem_set_self ..
    case reading =>
      have hread : told (.read o d) = patrolRead st o d s := patrolResult_of_read hstep hst
      have htallied : ∀ c, tallyOutcome st c s = tallied (tallyClass c p.tallies) := tallyOutcome_eq
      refine ⟨patrolResult_of_timeout hstep hst, fun hcls => ?_, fun hcls => ?_, fun hcls => ?_, fun hcls => ?_, fun hcls => ?_⟩
      · rw [hread, patrolRead, hcls, htallied] <;> rfl
      · rw [hread, patrolRead, hcls, htallied] <;> rfl
      · rw [hread, patrolRead, hcls, htallied] <;> rfl
      · intro t st' hstep' hline suppressed
        have hdecides : told (.read o d) = decideWriteback d t := by
          rw [hread, patrolRead, hcls, htallied] <;> rfl
        have hsuppressed : writebackSuppressed st' t = true ↔ suppressed := by
          rw [writebackSuppressed_iff, hline] <;> rfl
        rw [hdecides, decideWriteback_of_step hstep']
        refine ⟨fun hno => if_neg fun h => hno (hsuppressed.mp h), fun hyes => ?_⟩
        exact (if_pos (hsuppressed.mpr hyes)).trans (skipStep_of_step hstep')
      · exact fun hnew htrack => softAction_of_untracked (s := tallied _) hnew htrack
    case writeback =>
      have htold : ∀ r, told r = writebackResult st r s := fun r => patrolResult_of_writeback hstep hst
      exact ⟨fun media hmedia => patrolGrant_of_writeback hstep hst hmedia, htold _, htold _, htold _⟩

end PatrolStep

end Sys2Proof.Machine

/-! ### The endings of the head job, as its examination repeats (R101) -/

namespace Sys2Proof.Machine

open Sys2Proof.Safety

section Repeats

variable {s t : State} {j : Job} {rest : List Job}

/-- `t` has the queue and the journal of `a`. -/
structure SameWork (a t : State) : Prop where
  queue : t.queue = a.queue
  journal : t.journal = a.journal

theorem SameWork.tracked (a : State) : Tracked (SameWork a) fun _ _ => True where
  patrol _ h := ⟨h.queue, h.journal⟩
  passedZero h := ⟨h.queue, h.journal⟩
  counters _ _ h := ⟨h.queue, h.journal⟩
  alert h := ⟨(alertRequest_queue _).trans h.queue, (alertRequest_journal _).trans h.journal⟩
  noticeEnters _ _ h := ⟨h.queue, h.journal⟩
  noticeDropped h := ⟨h.queue, h.journal⟩
  pace _ h := ⟨h.queue, h.journal⟩
  out _ h := ⟨h.queue, h.journal⟩
  drained _ h := ⟨h.queue, h.journal⟩
  slots _ h := ⟨h.queue, h.journal⟩
  passedRise h _ := ⟨h.queue, h.journal⟩
  suspectJoins _ _ _ h := ⟨h.queue, h.journal⟩
  suspectReplaces _ _ _ _ h := ⟨h.queue, h.journal⟩
  suspectsChange _ _ h := ⟨h.queue, h.journal⟩
  suspectLeaves _ h := ⟨h.queue, h.journal⟩
  entryChanges _ _ _ _ h := ⟨h.queue, h.journal⟩
  entriesLock _ h := ⟨h.queue, h.journal⟩
  entriesUnlock _ h := ⟨h.queue, h.journal⟩
  evidence _ _ _ := trivial
  evidenceFirst _ _ := trivial

theorem SameWork.good (a : State) : Good (SameWork a) (tableKeys a) a := ⟨⟨rfl, rfl⟩, rfl⟩

theorem SameWork.dequeue {a t : State} (h : SameWork a t) (hq : a.queue = j :: rest) :
    SameWork { a with queue := rest } (dequeue t) := by
  simp only [Machine.dequeue, h.queue.trans hq]
  exact ⟨rfl, h.journal⟩

theorem SameWork.drainCheck {a t : State} (h : SameWork a t) : SameWork a (drainCheck t) :=
  ((SameWork.tracked a).drainCheck (K := tableKeys t) ⟨h, rfl⟩).prop

/-- A FAILED ending takes the head job out of the queue (R112). -/
theorem sameWork_endFailed (hq : s.queue = j :: rest) : SameWork { s with queue := rest } (endFailed s) := by
  have released : SameWork s (releaseSpare j s) := by
    unfold releaseSpare
    split <;> exact ⟨rfl, rfl⟩
  have tr := SameWork.tracked s
  have told := tr.handBack j (tr.countFailed (tr.listSuspect j.hostLine .deferred j.origin
    (tr.raise (K := tableKeys (releaseSpare j s)) ⟨released, rfl⟩ (kind := .retireFailed) (hostLine := some j.hostLine)
      (spare := none) (oldSpare := none) (values := [val 2]))))
  simp only [endFailed, hq]
  exact (told.prop.dequeue hq).drainCheck

/-- A promotion adds a FETCH job at the tail, or does nothing (R86). -/
theorem promote_eq (s : State) :
    promote s = s ∨ s.journal.state ≠ .failed ∧ ∃ line, promote s = enqueue line .promoted none none s := by
  unfold promote
  split
  · split
    · next e _ =>
      rcases fetchRequest_cases e.hostLine .promoted s with h | ⟨-, hfailed, ⟨-, h⟩ | ⟨-, -, h⟩⟩
      · exact .inl (by rw [h])
      · exact .inl (by rw [h])
      · exact .inr ⟨hfailed, e.hostLine, by rw [h]⟩
    · exact .inl rfl
  · exact .inl rfl

/-- How many examinations a state can need: each one but the last ends a job, all jobs with the journal FAILED, and the jobs
with a BUFFER otherwise, a promoted job having none. -/
def examinations (s : State) : Nat :=
  if s.journal.state = .failed then s.queue.length else s.queue.countP fun j => j.source = .buffer

theorem examinations_le (s : State) : examinations s ≤ s.queue.length := by
  unfold examinations
  split
  · exact le_rfl
  · exact List.countP_le_length

theorem SameWork.examinations {a t : State} (h : SameWork a t) : examinations t = examinations a := by
  rw [Machine.examinations, Machine.examinations, h.queue, h.journal]

theorem examinations_promote : examinations (promote s) = examinations s := by
  rcases promote_eq s with h | ⟨hfailed, line, h⟩
  · rw [h]
  · rw [h, examinations, examinations, enqueue_queue, enqueue_journal, if_neg hfailed, if_neg hfailed, List.countP_append]
    rfl

/-- An UNPLACED ending of a job with a BUFFER, the journal not FAILED, leaves fewer examinations. -/
theorem examinations_endUnplaced {notice : Nat → State → State} (hnotice : ∀ h t, SameWork t (notice h t))
    (hq : s.queue = j :: rest) (hfailed : s.journal.state ≠ .failed) (hsource : j.source = .buffer) :
    examinations (endUnplaced notice s) < examinations s := by
  have tr := SameWork.tracked s
  have told := tr.handBack j (tr.countFailed (tr.listSuspect j.hostLine .unplaced j.origin
    (K := tableKeys (notice j.hostLine s)) ⟨hnotice j.hostLine s, rfl⟩))
  have left : examinations (endUnplaced notice s) = examinations { s with queue := rest } := by
    simp only [endUnplaced, hq]
    rw [(SameWork.good _).prop.drainCheck.examinations, examinations_promote, (told.prop.dequeue hq).examinations]
  rw [left, examinations, examinations, if_neg hfailed, if_neg hfailed, hq]
  simp [hsource]

theorem examineHead_of_not_queued (n : Nat) (hq : s.queue = j :: rest) (hj : j.state ≠ .queued) : examineHead n s = s := by
  cases n with
  | zero => rfl
  | succ n => simp [examineHead, hq, hj]

theorem examineHead_of_failed (n : Nat) (hq : s.queue = j :: rest) (hj : j.state = .queued)
    (hfailed : s.journal.state = .failed) : examineHead (n + 1) s = examineHead n (endFailed s) := by
  simp [examineHead, hq, hj, hfailed]

theorem examineHead_of_buffer (n : Nat) (hq : s.queue = j :: rest) (hj : j.state = .queued)
    (hfailed : s.journal.state ≠ .failed) (hwaits : ¬ headWaits j s = true) (hsource : j.source = .buffer) :
    examineHead (n + 1) s = examineHead n (enterPlacing s) := by
  simp [examineHead, hq, hj, hfailed, hwaits, hsource]

/-- A reservation leaves the head job in PLACING. -/
theorem enterPlacing_of_free {i : Spare} (hfree : lowestFree s = some i) (hq : s.queue = j :: rest) :
    ∃ j', (enterPlacing s).queue = j' :: rest ∧ j'.state = .placing := by
  refine ⟨{ j with state := .placing, reserved := some i, attempts := j.attempts + 1 }, ?_, rfl⟩
  simp only [enterPlacing, hq, hfree, updateHead, setSpare_queue]
  split
  · exact raise_queue ..
  · rfl

theorem enterPlacing_of_empty (hfree : lowestFree s = none) (hq : s.queue = j :: rest) :
    enterPlacing s = endUnplaced raisePoolEmpty s := by
  simp only [enterPlacing, hq, hfree]

/-- The examinations stop before their bound. -/
theorem examineHead_of_enough (n : Nat) (s : State) (h : examinations s < n) : examineHead n s = examineHead (n + 1) s := by
  induction n generalizing s with
  | zero => exact absurd h (Nat.not_lt_zero _)
  | succ n ih =>
    cases hq : s.queue with
    | nil => simp only [examineHead, hq]
    | cons j rest =>
      by_cases hj : j.state = .queued
      · by_cases hfailed : s.journal.state = .failed
        · have hwork := sameWork_endFailed hq
          have hleft : examinations (endFailed s) < n := by
            rw [hwork.examinations, examinations, if_pos hfailed]
            rw [examinations, if_pos hfailed, hq, List.length_cons] at h
            exact Nat.lt_of_succ_lt_succ h
          rw [examineHead_of_failed n hq hj hfailed, examineHead_of_failed (n + 1) hq hj hfailed]
          exact ih _ hleft
        · by_cases hwaits : headWaits j s = true
          · simp only [examineHead, hq, hj, hfailed, hwaits, if_true, if_false, ne_eq, not_true_eq_false]
          · cases hsource : j.source with
            | fetch => simp [examineHead, hq, hj, hfailed, hwaits, hsource]
            | buffer =>
              rw [examineHead_of_buffer n hq hj hfailed hwaits hsource,
                examineHead_of_buffer (n + 1) hq hj hfailed hwaits hsource]
              cases hfree : lowestFree s with
              | some i =>
                obtain ⟨j', hq', hj'⟩ := enterPlacing_of_free hfree hq
                have hplacing : j'.state ≠ .queued := by simp [hj']
                rw [examineHead_of_not_queued n hq' hplacing, examineHead_of_not_queued (n + 1) hq' hplacing]
              | none =>
                refine ih _ ?_
                rw [enterPlacing_of_empty hfree hq]
                have := examinations_endUnplaced (notice := raisePoolEmpty)
                  (fun _ _ => ⟨raise_queue .., raise_journal ..⟩) hq hfailed hsource
                omega
      · simp only [examineHead, hq, hj, ne_eq, not_false_eq_true, if_true]

theorem examineHead_eq_runHead (n : Nat) (s : State) (h : examinations s < n) : examineHead n s = runHead s := by
  have more : ∀ k, examineHead n s = examineHead (n + k) s := fun k => by
    induction k with
    | zero => rfl
    | succ k ih => exact ih.trans (examineHead_of_enough (n + k) s (Nat.lt_of_lt_of_le h (Nat.le_add_right n k)))
  have bound : ∀ k, runHead s = examineHead (s.queue.length + 1 + k) s := fun k => by
    induction k with
    | zero => rfl
    | succ k ih =>
      refine ih.trans (examineHead_of_enough (s.queue.length + 1 + k) s ?_)
      have := examinations_le s
      omega
  rw [more (s.queue.length + 1), bound n, Nat.add_comm n]

/-- A QUEUED head job ends FAILED with the journal FAILED, and the next one is examined (R101). -/
theorem runHead_of_failed (hq : s.queue = j :: rest) (hj : j.state = .queued) (hfailed : s.journal.state = .failed) :
    runHead s = runHead (endFailed s) := by
  have hwork := sameWork_endFailed hq
  rw [runHead, hq, examineHead_of_failed _ hq hj hfailed]
  refine examineHead_eq_runHead _ _ ?_
  rw [hwork.examinations, examinations, if_pos hfailed]
  exact Nat.lt_succ_self _

/-- A QUEUED head job with a BUFFER and nothing to wait for is placed (R101). -/
theorem runHead_of_buffer (hq : s.queue = j :: rest) (hj : j.state = .queued) (hfailed : s.journal.state ≠ .failed)
    (hwaits : ¬ headWaits j s = true) (hsource : j.source = .buffer) : runHead s = runHead (enterPlacing s) := by
  rw [runHead, hq, examineHead_of_buffer _ hq hj hfailed hwaits hsource]
  cases hfree : lowestFree s with
  | some i =>
    obtain ⟨j', hq', hj'⟩ := enterPlacing_of_free hfree hq
    have hplacing : j'.state ≠ .queued := by simp [hj']
    rw [examineHead_of_not_queued _ hq' hplacing, runHead_of_not_queued hq' hplacing]
  | none =>
    refine examineHead_eq_runHead _ _ ?_
    rw [enterPlacing_of_empty hfree hq]
    refine Nat.lt_of_lt_of_le (examinations_endUnplaced (notice := raisePoolEmpty)
      (fun _ _ => ⟨raise_queue .., raise_journal ..⟩) hq hfailed hsource) ?_
    exact hq ▸ examinations_le s

end Repeats

end Sys2Proof.Machine

/-! ### The head job from its examination to its append (O43) -/

namespace Sys2Proof.Machine

open Sys2Proof.Safety

section HeadJob

variable {s : State} {j : Job} {rest : List Job} {o : DecodeOutcome} {d : LineData}

/-- The wait of the head job before its first media operation (R102). -/
def Waits (j : Job) (s : State) : Prop :=
  (∃ e ∈ s.channel.table, e.hostLine = j.hostLine ∧ (∃ ctx, e.state = .executing ctx) ∧ j.originator ≠ some e.tag) ∨
    (∃ x ∈ s.channel.residuals, x.hostLine = j.hostLine) ∨
    ∃ st d, s.patrol.step = some st ∧ st.state = .writingBack d true ∧ st.hostLine = j.hostLine

theorem headWaits_iff : headWaits j s = true ↔ Waits j s := by
  unfold headWaits Waits
  rw [Bool.or_eq_true, Bool.or_eq_true, hasResidual_iff, writebackIssued_iff, or_assoc]
  refine or_congr ?_ Iff.rfl
  simp only [List.any_eq_true, Bool.and_eq_true, beq_iff_eq, bne_iff_ne, isExecuting_iff, and_assoc, ne_comm]

/-! #### The claim -/

section Claim

variable (hq : s.queue = j :: rest)
include hq

theorem retirementClaim_of_inFlight (h : inFlight s .retirement = true) : retirementClaim s = none := by
  simp [retirementClaim, hq, h]

variable (hidle : ¬ inFlight s .retirement = true)
include hidle

theorem retirementClaim_of_idle :
    retirementClaim s =
      match j.state, j.reserved with
      | .fetching, _ => some (.read (translate s j.hostLine))
      | .placing, some spare => some (.write (spareAddress spare) (j.buffer.getD zeroLine))
      | .checking, some spare => some (.read (spareAddress spare))
      | _, _ => none := by
  unfold retirementClaim
  rw [hq]
  exact if_neg hidle

end Claim

/-! #### The appends -/

theorem requestAppend_of_idle {r : AppendRecord} (h : s.journal.state = .idle) :
    requestAppend r s =
      presentNext { s with journal := { s.journal with state := .appending, pending := some r, work := .append } } := by
  simp only [requestAppend, h]

theorem requestAppend_of_compacting {r : AppendRecord} (h : s.journal.state = .compacting) :
    requestAppend r s = { s with journal := { s.journal with pending := some r } } := by
  simp only [requestAppend, h]

theorem requestAppend_of_failed {r : AppendRecord} (h : s.journal.state = .failed) :
    requestAppend r s = runHead (endFailed s) := by
  simp only [requestAppend, h]

/-- The append that the head job asks for, in each state of the journal (R127, R137). -/
def Asks (r : AppendRecord) (asking u : State) : Prop :=
  (asking.journal.state = .idle → asking.journal.presented = none → asking.journal.service = none →
    asking.journal.active ≠ none →
    u =
      { asking with
        journal :=
          { asking.journal with state := .appending, pending := some r, work := .append, presented := some .work } }) ∧
  (asking.journal.state = .idle → asking.journal.presented = some .service →
    u = { asking with journal := { asking.journal with state := .appending, pending := some r, work := .append } }) ∧
  (asking.journal.state = .compacting → u = { asking with journal := { asking.journal with pending := some r } }) ∧
  (asking.journal.state = .failed → u = runHead (endFailed asking))

theorem asks_requestAppend (r : AppendRecord) (asking : State) : Asks r asking (requestAppend r asking) := by
  refine ⟨fun hstate hpresented hservice hactive => ?_, fun hstate hpresented => ?_, requestAppend_of_compacting,
    requestAppend_of_failed⟩
  · obtain ⟨half, hhalf⟩ := Option.ne_none_iff_exists'.mp hactive
    rw [requestAppend_of_idle hstate, presentNext_of_work]
    · exact hpresented
    · exact hservice
    · simp [workRequest, hhalf]
  · rw [requestAppend_of_idle hstate, presentNext_of_presented]
    simp [hpresented]

theorem discardSpare_of_held {spare : Spare} (hq : s.queue = j :: rest) (hheld : j.reserved = some spare) :
    discardSpare s =
      requestAppend (.discard spare)
        { s with
          lineMap := { s.lineMap with spares := s.lineMap.spares.set spare.val .discarded }
          counters := { s.counters with sparesDiscarded := satInc s.counters.sparesDiscarded }
          queue := { j with state := .placing, reserved := none } :: rest } := by
  obtain ⟨line, kind, origin, source, buffer, attempts, reserved, originator, state⟩ := j
  cases hheld
  simp only [discardSpare, hq]
  rw [updateHead_cons (s := countDiscarded (setSpare spare .discarded s)) hq]
  rfl

theorem enterRecording_of_held {spare : Spare} (hq : s.queue = j :: rest) (hheld : j.reserved = some spare) :
    enterRecording s =
      requestAppend (retirementRecord j spare) { s with queue := { j with state := .recording } :: rest } := by
  simp only [enterRecording, hq, hheld, updateHead]

section Results

variable {r : MediaResult} (hq : s.queue = j :: rest)
include hq

theorem retirementResult_of_fetching (hj : j.state = .fetching) : retirementResult r s = fetchResult r s := by
  simp only [retirementResult, hq, hj]

theorem retirementResult_of_placing (hj : j.state = .placing) : retirementResult r s = placementResult r s := by
  simp only [retirementResult, hq, hj]

theorem retirementResult_of_checking (hj : j.state = .checking) : retirementResult r s = checkResult r s := by
  simp only [retirementResult, hq, hj]

end Results

/-- Settles O43, by the state of the head job. -/
theorem headJobRuns : Obligations.HeadJobRuns := by
  refine ⟨fun s => ⟨runHead_of_empty rfl, fun line => examineLine_of_other fun _ _ h => nomatch h⟩, fun j rest s hq => ⟨fun line =>
    ⟨fun hline => examineLine_of_head hq hline.symm, fun hline => ?other⟩, ?examined, ?claims, fun id o d => ?results⟩⟩
  case other =>
    refine examineLine_of_other fun first others h => ?_
    rw [hq, List.cons.injEq] at h
    exact fun heq => hline (by rw [← heq, h.1])
  case examined =>
    intro waits
    have hwaits : headWaits j s = true ↔ waits := headWaits_iff
    refine ⟨runHead_of_not_queued hq, runHead_of_failed hq, fun hj hfailed => ⟨fun h => ?_, fun h => ⟨fun hsource => ?_,
      fun hsource => ?_⟩⟩⟩
    · exact runHead_of_waiting hq hfailed (hwaits.mpr h)
    · exact runHead_of_fetch hq hj hfailed (Bool.eq_false_iff.mpr fun hw => h (hwaits.mp hw)) hsource
    · exact runHead_of_buffer hq hj hfailed (fun hw => h (hwaits.mp hw)) hsource
  case claims =>
    intro busy
    have hbusy : inFlight s .retirement = true ↔ busy := inFlight_iff
    refine ⟨fun h => retirementClaim_of_inFlight hq (hbusy.mpr h), fun h => ?_⟩
    have claim := retirementClaim_of_idle hq fun hf => h (hbusy.mp hf)
    refine ⟨fun hj => ?_, fun spare hheld => ⟨fun data hj hbuffer => ?_, fun hj => ?_⟩, fun hj => ?_⟩
    · rw [claim, hj]
    · rw [claim, hj, hheld, hbuffer] <;> rfl
    · rw [claim, hj, hheld] <;> rfl
    · rcases hj with hj | hj | ⟨hj, hheld⟩
      · rw [claim, hj]
      · rw [claim, hj]
      · rw [claim, hj, hheld]
  case results =>
    intro told
    refine ⟨fun hj => ?fetching, fun spare hheld => ?held⟩
    case fetching =>
      have htold : ∀ r, told r = fetchResult r s := fun r => retirementResult_of_fetching hq hj
      refine ⟨htold _, fun hcls => (htold _).trans (if_pos hcls), fun hcls => (htold _).trans ((if_neg hcls).trans ?_)⟩
      rw [updateHead_cons hq]
    case held =>
      intro asks discards records
      have asked : ∀ r job m (c : Counters), asks r job { s with lineMap := m, counters := c }
          (requestAppend r { s with lineMap := m, counters := c, queue := job :: rest }) := fun r job m c =>
        asks_requestAppend r { s with lineMap := m, counters := c, queue := job :: rest }
      have discarded : ∀ u, u = discardSpare s → discards u := fun u hu => by
        rw [hu, discardSpare_of_held hq hheld]
        exact asked _ _ _ _
      refine ⟨fun hj => ?placing, fun hj => ?checking⟩
      case placing =>
        have htold : ∀ r, told r = placementResult r s := fun r => retirementResult_of_placing hq hj
        exact ⟨(htold _).trans (updateHead_cons hq), discarded _ (htold _), discarded _ (htold _)⟩
      case checking =>
        have htold : ∀ r, told r = checkResult r s := fun r => retirementResult_of_checking hq hj
        have recorded : o.cls = .clean → ∀ r, retirementRecord j spare = r → records r (told (.read o d)) := by
          intro hcls r hr
          rw [htold, checkResult, if_pos hcls, enterRecording_of_held hq hheld, hr]
          exact asked _ _ s.lineMap s.counters
        refine ⟨fun hcls => discarded _ ((htold _).trans (if_neg hcls)), discarded _ (htold _), fun hcls =>
          ⟨fun hkind => recorded hcls _ ?_, fun old hkind => recorded hcls _ ?_⟩⟩
        · rw [retirementRecord, hkind]
        · rw [retirementRecord, hkind]

end HeadJob

end Sys2Proof.Machine

/-! ### The endings of the head job (O45, O44) -/

namespace Sys2Proof.Machine

open Sys2Proof.Safety

section Endings

variable {s t : State} {j : Job} {rest : List Job}

theorem promote_of_off (h : s.opState ≠ .ready ∨ s.journal.state = .failed ∨ s.settings.autoRetire = false) :
    promote s = s := by
  refine if_neg ?_
  rintro ⟨hstate, hjournal, hauto⟩
  rcases h with h | h | h
  · exact h hstate
  · exact hjournal h
  · simp [h] at hauto

section Promoting

variable (hstate : s.opState = .ready) (hjournal : s.journal.state ≠ .failed) (hauto : s.settings.autoRetire = true)
include hstate hjournal hauto

theorem promote_of_some {x : Suspect} (h : promotable s = some x) : promote s = (fetchRequest x.hostLine .promoted s).2 := by
  unfold promote
  rw [if_pos ⟨hstate, hjournal, hauto⟩, h]

theorem promote_of_none (h : promotable s = none) : promote s = s := by
  unfold promote
  rw [if_pos ⟨hstate, hjournal, hauto⟩, h]

end Promoting

/-- The oldest DEFERRED line with no job is promoted (R86). -/
theorem promotable_eq_some {older younger : List Suspect} {x : Suspect} (hlist : s.suspects = older ++ x :: younger)
    (hreason : x.reason = .deferred) (hfree : ∀ j ∈ s.queue, j.hostLine ≠ x.hostLine)
    (holder : ∀ y ∈ older, y.reason = .deferred → ∃ j ∈ s.queue, j.hostLine = y.hostLine) : promotable s = some x := by
  refine List.find?_eq_some_iff_append.mpr ⟨?_, older, younger, hlist, fun y hy => ?_⟩
  · simp [hreason, isLocked_of_no_job hfree]
  · by_cases hy' : y.reason = .deferred
    · simp [isLocked_of_job (holder y hy hy')]
    · simp [hy']

theorem promotable_eq_none (h : ∀ x ∈ s.suspects, x.reason = .deferred → ∃ j ∈ s.queue, j.hostLine = x.hostLine) :
    promotable s = none := by
  refine List.find?_eq_none.mpr fun x hx => ?_
  by_cases hx' : x.reason = .deferred
  · simp [isLocked_of_job (h x hx hx')]
  · simp [hx']

theorem dequeue_of_cons (hq : s.queue = j :: rest) :
    dequeue s =
      { s with
        queue := rest
        channel :=
          { s.channel with
            table :=
              s.channel.table.map fun e =>
                if e.hostLine = j.hostLine ∧ e.state = .held then { e with state := readyState e.request } else e } } := by
  simp only [dequeue, hq]
  rfl

theorem handBack_queue : (handBack j s).queue = s.queue := by
  unfold handBack
  split
  · exact (patrolSeesWrite_outside _).queue
  · rfl

/-- The data handed back to the entry of a tag, in the table (R113). -/
def handEntry (j : Job) (e : Entry) : Entry :=
  if j.originator = some e.tag then handedBack j.buffer e else e

/-- The hand-back of a job's data: its entry takes it, and the patrol sees an entry that passes to EXECUTING (R113, R162). -/
theorem handBack_eq :
    handBack j s =
      let handed : State := { s with channel := { s.channel with table := s.channel.table.map (handEntry j) } }
      if j.originator ≠ none then patrolSeesWrite j.hostLine handed else handed := by
  dsimp only
  cases ho : j.originator with
  | none =>
    have hkeep : handEntry j = id := funext fun e => if_neg (by simp [ho])
    simp only [handBack, ho, ne_eq, not_true_eq_false, if_false, hkeep, List.map_id]
  | some tag =>
    have hhand : handEntry j = fun e => if e.tag = tag then handedBack j.buffer e else e := funext fun e =>
      if_congr (by rw [ho, Option.some.injEq, eq_comm]) rfl rfl
    simp only [handBack, ho, ne_eq, reduceCtorEq, not_false_eq_true, if_true, hhand]
    rfl

theorem endUnplaced_eq {notice : Nat → State → State} (hq : s.queue = j :: rest) :
    endUnplaced notice s =
      drainCheck (promote (dequeue (handBack j (countFailed
        (listSuspect j.hostLine .unplaced j.origin (notice j.hostLine s)))))) := by
  simp only [endUnplaced, hq]

theorem endLost_eq (hq : s.queue = j :: rest) :
    endLost s = drainCheck (promote (dequeue (countFailed (listDataLost j.hostLine .fetch j.origin s)))) := by
  simp only [endLost, hq]

theorem endFailed_eq (hq : s.queue = j :: rest) :
    endFailed s =
      drainCheck (dequeue (handBack j (countFailed
        (listSuspect j.hostLine .deferred j.origin (raiseRetireFailedJournal j.hostLine (releaseSpare j s)))))) := by
  simp only [endFailed, hq]

theorem listSuspect_queue (hostLine reason o) : (listSuspect hostLine reason o s).queue = s.queue := by
  obtain ⟨l, n, c, h⟩ := listSuspect_eq hostLine reason o s
  rw [h]

/-- Settles O45, from the parts of an ending (R110 to R113). -/
theorem endingsWithoutCommit : Obligations.EndingsWithoutCommit := by
  refine ⟨fun s => ⟨promote_of_off, fun hstate hjournal hauto => ⟨fun older x younger hlist hreason hfree holder => ?_,
    fun h => ?_⟩, fun h => if_pos h, fun h => if_neg h⟩, fun j rest s hq => ?_⟩
  · exact promote_of_some hstate hjournal hauto (promotable_eq_some hlist hreason hfree holder)
  · exact promote_of_none hstate hjournal hauto (promotable_eq_none h)
  · intro ended listed unplaced
    have handsBack : ∀ t : State, t.queue = j :: rest → dequeue (handBack j (countFailed t)) = ended true t := fun t ht => by
      rw [dequeue_of_cons (s := handBack j (countFailed t)) (handBack_queue.trans ht), handBack_eq]
      simp only [ended, true_and]
      rfl
    have keeps : ∀ t : State, t.queue = j :: rest → dequeue (countFailed t) = ended false t := fun t ht => by
      rw [dequeue_of_cons (s := countFailed t) ht]
      simp only [ended, Bool.false_eq_true, false_and, if_false, List.map_id']
      rfl
    have lists : ∀ reason (t : State), t.queue = j :: rest → (listed reason t).queue = j :: rest := fun reason t ht =>
      (listSuspect_queue ..).trans ht
    have unplaces : ∀ notice : Nat → State → State, (notice j.hostLine s).queue = s.queue → unplaced notice :=
      fun notice hnotice => by
        have h := handsBack _ (lists .unplaced _ (hnotice.trans hq))
        exact (endUnplaced_eq hq).trans (congrArg (fun t => drainCheck (promote t)) h)
    refine ⟨unplaces _ rfl, unplaces _ (raise_queue ..), unplaces _ (raise_queue ..), ?_, fun hnone => ?_, fun spare hheld => ?_⟩
    · rw [← keeps _ (lists _ _ ((raise_queue ..).trans hq))]
      exact endLost_eq hq
    · have hrelease : releaseSpare j s = s := by simp only [releaseSpare, hnone]
      have h := handsBack _ (lists .deferred _ ((raise_queue s .retireFailed (some j.hostLine) none none [2]).trans hq))
      rw [endFailed_eq hq, hrelease]
      exact congrArg drainCheck h
    · have hrelease : releaseSpare j s = setSpare spare .free s := by simp only [releaseSpare, hheld]
      have h := handsBack _ (lists .deferred _
        ((raise_queue (setSpare spare .free s) .retireFailed (some j.hostLine) none none [2]).trans hq))
      rw [endFailed_eq hq, hrelease]
      exact congrArg drainCheck h

end Endings

end Sys2Proof.Machine

/-! ### The commit of the head job (O44) -/

namespace Sys2Proof.Machine

open Sys2Proof.Safety

section Commit

variable {s : State} {j : Job} {rest : List Job} {spare old : Spare} {generation : BitVec 32}

/-- The map entry that a commit makes (R9). -/
def committedEntry (j : Job) (spare : Spare) (generation : BitVec 32) : MapEntry :=
  { hostLine := j.hostLine, spare := spare, origin := j.origin, generation := generation }

theorem commitMap_of_retire (hkind : j.kind = .retire) (hnew : ∀ x ∈ s.lineMap.entries, x.hostLine ≠ j.hostLine) :
    commitMap j spare generation s =
      { s with
        lineMap :=
          { entries := s.lineMap.entries ++ [committedEntry j spare generation]
            spares := s.lineMap.spares.set spare.val .inUse } } := by
  have hnone : mapEntry s j.hostLine = none := List.find?_eq_none.mpr fun x hx => by simpa using hnew x hx
  have hno : ¬ (mapEntry s j.hostLine).isSome = true := by simp [hnone]
  simp only [commitMap, hkind, putEntry, if_neg hno]
  rfl

theorem commitMap_of_reretire (hkind : j.kind = .reretire old) (hmapped : ∃ x ∈ s.lineMap.entries, x.hostLine = j.hostLine) :
    commitMap j spare generation s =
      { s with
        lineMap :=
          { entries :=
              s.lineMap.entries.map fun x => if x.hostLine = j.hostLine then committedEntry j spare generation else x
            spares := (s.lineMap.spares.set spare.val .inUse).set old.val .discarded }
        counters := { s.counters with sparesDiscarded := satInc s.counters.sparesDiscarded } } := by
  have hsome : (mapEntry s j.hostLine).isSome = true := by
    obtain ⟨x, hx, hline⟩ := hmapped
    exact List.find?_isSome.mpr ⟨x, hx, by simpa using hline⟩
  simp only [commitMap, hkind, putEntry, if_pos hsome]
  rfl

/-- The originating entry of a committed job, and then the HELD entry of its line (R43, R40). -/
def freeEntry (j : Job) (e : Entry) : Entry :=
  let told :=
    if j.originator = some e.tag then
      (match e.state with | .retiring ctx => { e with state := .completing .ok none (some ctx) } | _ => e)
    else e
  if told.hostLine = j.hostLine ∧ told.state = .held then { told with state := readyState told.request } else told

theorem dequeue_completeOriginator (hq : s.queue = j :: rest) :
    dequeue (completeOriginator j s) =
      { s with
        queue := rest
        channel := { s.channel with table := s.channel.table.map (freeEntry j) } } := by
  have hqueue : (completeOriginator j s).queue = j :: rest := by
    unfold completeOriginator
    split <;> exact hq
  rw [dequeue_of_cons hqueue]
  cases ho : j.originator with
  | none =>
    have hfree : freeEntry j = fun e =>
        if e.hostLine = j.hostLine ∧ e.state = .held then { e with state := readyState e.request } else e :=
      funext fun e => by simp only [freeEntry, ho, reduceCtorEq, if_false]
    simp only [completeOriginator, ho, hfree]
  | some tag =>
    have hfree : ∀ e, freeEntry j e =
        (fun told : Entry =>
          if told.hostLine = j.hostLine ∧ told.state = .held then { told with state := readyState told.request } else told)
        (if e.tag = tag then
          (match e.state with | .retiring ctx => { e with state := .completing .ok none (some ctx) } | _ => e)
        else e) := fun e => by
      simp only [freeEntry, ho, Option.some.injEq, eq_comm (a := tag)]
    simp only [completeOriginator, ho, updateEntry, List.map_map, funext hfree]
    rfl

/-- The commit of the head job before its promotion and drain check (R109). -/
def committed (j : Job) (rest : List Job) (spare : Spare) (old : Option Spare) (mapped : State) : State :=
  { raise .retired (some j.hostLine) (some spare) old [BitVec.ofNat 32 (originCode j.origin)]
      { mapped with
        suspects := mapped.suspects.filter fun x => x.hostLine != j.hostLine
        counters := { mapped.counters with retirementsCommitted := satInc mapped.counters.retirementsCommitted } } with
    queue := rest
    channel := { mapped.channel with table := mapped.channel.table.map (freeEntry j) } }

theorem commitHead_eq (hq : s.queue = j :: rest) (hheld : j.reserved = some spare) :
    commitHead generation s =
      drainCheck (promote (committed j rest spare j.kind.oldSpare (commitMap j spare generation s))) := by
  have hqueue : (commitMap j spare generation s).queue = j :: rest := by
    unfold commitMap
    split <;> exact hq
  simp only [commitHead, hq, hheld]
  refine congrArg (fun t => drainCheck (promote t)) ((dequeue_completeOriginator (rest := rest) ?_).trans ?_)
  · exact (raise_queue ..).trans hqueue
  · rw [raiseRetired, raise_channel]
    rfl

theorem committed_opState {o : Option Spare} : (committed j rest spare o s).opState = s.opState := raise_opState ..

theorem committed_settings {o : Option Spare} : (committed j rest spare o s).settings = s.settings := raise_settings ..

/-- In READY with auto_retire off nothing follows a commit (R86, R154). -/
theorem drainCheck_promote_of_off (hstate : s.opState = .ready) (hauto : s.settings.autoRetire = false) :
    drainCheck (promote s) = s := by
  rw [promote_of_off (.inr (.inr hauto)), drainCheck_of_not_quiescing (by simp [hstate])]

/-- Settles O44, by the kind of the job. -/
theorem commitOfTheHeadJob : Obligations.CommitOfTheHeadJob := by
  intro j rest spare generation s hq hheld c m freed committedAs
  have commits : ∀ mapped : State, commitMap j spare generation s = mapped → mapped.opState = s.opState →
      mapped.settings = s.settings →
      commitHead generation s = drainCheck (promote (committed j rest spare j.kind.oldSpare mapped)) ∧
        (s.opState = .ready → s.settings.autoRetire = false →
          commitHead generation s = committed j rest spare j.kind.oldSpare mapped) := fun mapped hmap hstate hset => by
    have h := commitHead_eq (generation := generation) hq hheld
    rw [hmap] at h
    refine ⟨h, fun hready hauto => h.trans (drainCheck_promote_of_off ?_ ?_)⟩
    · rw [committed_opState, hstate, hready]
    · rw [committed_settings, hset, hauto]
  refine ⟨fun hkind hnew => ?_, fun old hkind hmapped => ?_⟩
  · have h := commits _ (commitMap_of_retire hkind hnew) rfl rfl
    rw [hkind] at h
    exact h
  · have h := commits _ (commitMap_of_reretire hkind hmapped) rfl rfl
    rw [hkind] at h
    exact h

end Commit

end Sys2Proof.Machine

/-! ### What the jobs leave of the journal, and what the journal's work leaves of its claim -/

namespace Sys2Proof.Machine

open Sys2Proof.Safety

/-- `t` has the journal of `a`, and is in REBUILD as `a` is. -/
structure SameJournal (a t : State) : Prop where
  journal : t.journal = a.journal
  rebuild : t.opState = .rebuild ↔ a.opState = .rebuild

namespace SameJournal

variable {a s t : State}

theorem refl (s : State) : SameJournal s s := ⟨rfl, .rfl⟩

theorem trans (h : SameJournal a s) (h' : SameJournal s t) : SameJournal a t :=
  ⟨h'.journal.trans h.journal, h'.rebuild.trans h.rebuild⟩

/-- The changes of the blocks beside the journal keep it. -/
theorem shared (a : State) : Shared (SameJournal a) fun _ _ => True where
  patrol _ h := ⟨h.journal, h.rebuild⟩
  passedZero h := ⟨h.journal, h.rebuild⟩
  counters _ _ h := ⟨h.journal, h.rebuild⟩
  alert h := ⟨(alertRequest_journal _).trans h.journal, by rw [alertRequest_opState]; exact h.rebuild⟩
  noticeEnters _ _ h := ⟨h.journal, h.rebuild⟩
  noticeDropped h := ⟨h.journal, h.rebuild⟩
  pace _ h := ⟨h.journal, h.rebuild⟩
  out _ h := ⟨h.journal, h.rebuild⟩
  drained {s} ho h := ⟨h.journal, by rw [← h.rebuild, ho]; simp⟩
  slots _ h := ⟨h.journal, h.rebuild⟩
  passedRise h _ := ⟨h.journal, h.rebuild⟩
  suspectJoins _ _ _ h := ⟨h.journal, h.rebuild⟩
  suspectReplaces _ _ _ _ h := ⟨h.journal, h.rebuild⟩
  suspectsChange _ _ h := ⟨h.journal, h.rebuild⟩
  suspectLeaves _ h := ⟨h.journal, h.rebuild⟩
  entryChanges _ _ _ _ h := ⟨h.journal, h.rebuild⟩
  entriesLock _ h := ⟨h.journal, h.rebuild⟩
  entriesUnlock _ h := ⟨h.journal, h.rebuild⟩
  evidence _ _ _ := trivial
  evidenceFirst _ _ := trivial
  jobJoins _ _ _ _ _ _ _ h := ⟨h.journal, h.rebuild⟩
  adopts _ _ _ h := ⟨h.journal, h.rebuild⟩
  spares _ h := ⟨h.journal, h.rebuild⟩
  headChanges f _ h := by
    obtain ⟨q, hq⟩ := updateHead_eq (s := _) f
    rw [hq]
    exact ⟨h.journal, h.rebuild⟩
  headLeaves _ h := ⟨h.journal, h.rebuild⟩

theorem good (s : State) : Good (SameJournal s) (tableKeys s) s := ⟨refl s, rfl⟩

theorem raise {k hostLine spare old values} : SameJournal s (raise k hostLine spare old values s) :=
  ⟨raise_journal .., by rw [raise_opState]⟩

theorem drainCheck : SameJournal s (drainCheck s) := ((shared s).drainCheck (good s)).prop

theorem promote : SameJournal s (promote s) := ((shared s).promote (good s)).prop

theorem dequeue : SameJournal s (dequeue s) := ((shared s).dequeue (good s)).prop

theorem runHead : SameJournal s (runHead s) := ((shared s).runHead (good s)).prop

theorem endFailed : SameJournal s (endFailed s) := ((shared s).endFailed (good s)).prop

theorem enterPlacing : SameJournal s (enterPlacing s) := ((shared s).enterPlacing (good s)).prop

theorem afterDiscard : SameJournal s (afterDiscard s) := by
  unfold Machine.afterDiscard
  split
  · exact refl s
  · split
    · exact ((shared s).endUnplaced _ (fun h => (shared s).raise h) (good s)).prop
    · exact enterPlacing

theorem commitMap {j : Job} {spare : Spare} {generation : BitVec 32} : SameJournal s (commitMap j spare generation s) := by
  unfold Machine.commitMap
  split <;> exact ⟨rfl, .rfl⟩

theorem committed {j : Job} {rest : List Job} {spare : Spare} {old : Option Spare} :
    SameJournal s (committed j rest spare old s) :=
  ⟨raise_journal .., by rw [committed_opState]⟩

theorem commitHead {generation : BitVec 32} : SameJournal s (commitHead generation s) := by
  cases hq : s.queue with
  | nil =>
    simp only [Machine.commitHead, hq]
    exact refl s
  | cons j rest =>
    cases hheld : j.reserved with
    | none =>
      simp only [Machine.commitHead, hq, hheld]
      exact refl s
    | some spare =>
      rw [commitHead_eq hq hheld]
      exact commitMap.trans (committed.trans (promote.trans drainCheck))

theorem answerDone {r : AppendRecord} {generation : BitVec 32} : SameJournal s (answerDone r generation s) := by
  unfold Machine.answerDone
  split
  · exact commitHead.trans runHead
  · exact commitHead.trans runHead
  · exact afterDiscard.trans runHead

end SameJournal

/-- `t` has the service read and the presented claim of `a` (R137). -/
structure SameClaim (a t : State) : Prop where
  service : t.journal.service = a.journal.service
  presented : t.journal.presented = a.journal.presented

theorem SameJournal.claim {a t : State} (h : SameJournal a t) : SameClaim a t :=
  ⟨congrArg Journal.service h.journal, congrArg Journal.presented h.journal⟩

namespace SameClaim

variable {a s t : State}

theorem refl (s : State) : SameClaim s s := ⟨rfl, rfl⟩

theorem trans (h : SameClaim a s) (h' : SameClaim s t) : SameClaim a t :=
  ⟨h'.service.trans h.service, h'.presented.trans h.presented⟩

/-- A change of the journal's other fields before a change that keeps the claim. -/
theorem after (h : SameClaim s t) (hservice : s.journal.service = a.journal.service)
    (hpresented : s.journal.presented = a.journal.presented) : SameClaim a t := trans ⟨hservice, hpresented⟩ h

theorem raise {k hostLine spare old values} : SameClaim s (raise k hostLine spare old values s) := SameJournal.raise.claim

theorem drainCheck : SameClaim s (drainCheck s) := SameJournal.drainCheck.claim

theorem journalIdle : SameClaim s (journalIdle s) := after drainCheck rfl rfl

theorem enterService : SameClaim s (enterService s) := by
  unfold Machine.enterService
  split
  · exact after drainCheck rfl rfl
  · exact ⟨rfl, rfl⟩

theorem finishRebuild : SameClaim s (finishRebuild s) := raise.trans enterService

theorem halt {cause : HaltCause} : SameClaim s (halt cause s) := by
  unfold Machine.halt raiseRebuildDone
  exact after raise rfl rfl

theorem answerFailed : SameClaim s (answerFailed s) := by
  unfold Machine.answerFailed
  split
  · exact after (SameJournal.endFailed.trans SameJournal.runHead).claim rfl rfl
  · exact refl s

theorem failCompaction {cause : FailCause} : SameClaim s (failCompaction cause s) := by
  have told : SameClaim s (Machine.answerFailed (raiseJournalFailed cause s.journal.uncertain
      { s with journal := { s.journal with state := .failed, work := .none } })) :=
    after (raise.trans answerFailed) rfl rfl
  unfold Machine.failCompaction
  dsimp only
  split
  · split
    · exact told.trans halt
    · exact told.trans finishRebuild
  · exact told.trans drainCheck

theorem startCompaction {carries : Bool} : SameClaim s (startCompaction carries s) := by
  unfold Machine.startCompaction
  split
  · exact after failCompaction rfl rfl
  · exact ⟨rfl, rfl⟩

theorem appendDone : SameClaim s (appendDone s) := by
  unfold Machine.appendDone
  split
  · exact refl s
  · next r _ =>
    have answered : SameClaim s (answerDone r s.journal.generation
        { s with journal := { s.journal with tail := s.journal.tail + 1, pending := none, work := .none } }) :=
      after SameJournal.answerDone.claim rfl rfl
    dsimp only
    split
    · exact answered.trans startCompaction
    · exact answered.trans journalIdle

theorem appendFailed : SameClaim s (appendFailed s) :=
  after startCompaction rfl rfl

theorem afterCompaction : SameClaim s (afterCompaction s) := by
  unfold Machine.afterCompaction
  split
  · exact ⟨rfl, rfl⟩
  · split
    · exact after finishRebuild rfl rfl
    · exact journalIdle

theorem answerCarried {c : Compaction} : SameClaim s (answerCarried c s) := by
  unfold Machine.answerCarried
  split
  · exact after SameJournal.answerDone.claim rfl rfl
  · exact refl s

theorem compactionDone {c : Compaction} : SameClaim s (compactionDone c s) := by
  unfold Machine.compactionDone raiseJournalCompacted
  exact after (raise.trans (answerCarried.trans afterCompaction)) rfl rfl

theorem compactionAdvance {c : Compaction} : SameClaim s (compactionAdvance c s) := by
  unfold Machine.compactionAdvance
  split
  · exact ⟨rfl, rfl⟩
  · exact compactionDone

theorem selectHeader {x y : Option (BitVec 32)} : SameClaim s (selectHeader x y s) := by
  unfold Machine.selectHeader
  split
  · exact ⟨rfl, rfl⟩
  · unfold raiseRebuildDone
    exact after raise rfl rfl

theorem endReplay {torn : Bool} : SameClaim s (endReplay torn s) := by
  unfold Machine.endReplay
  split_ifs
  · exact raise.trans startCompaction
  · exact startCompaction
  · exact after finishRebuild rfl rfl

theorem applyRecord {generation : BitVec 32} {r : AppendRecord} : SameClaim s (applyRecord generation r s) := by
  cases r <;> exact ⟨rfl, rfl⟩

theorem replayRecord {o : DecodeOutcome} {d : LineData} : SameClaim s (replayRecord o d s) := by
  unfold Machine.replayRecord
  dsimp only
  split
  · exact endReplay
  · exact endReplay
  · next r _ =>
    have applied := applyRecord (s := s) (generation := (recordOf d).generation) (r := r)
    split
    · exact ⟨applied.service, applied.presented⟩
    · exact after endReplay applied.service applied.presented

theorem rebuildRead {step : RebuildStep} {o : DecodeOutcome} {d : LineData} : SameClaim s (rebuildRead step o d s) := by
  unfold Machine.rebuildRead
  split
  · exact ⟨rfl, rfl⟩
  · exact selectHeader
  · split
    · exact halt
    · exact ⟨rfl, rfl⟩
  · split
    · exact halt
    · exact ⟨rfl, rfl⟩
  · exact replayRecord

theorem endPending {results : List Byte} : SameClaim s (endPending results s) := by
  unfold Machine.endPending
  split <;> exact ⟨rfl, rfl⟩

theorem initializeAdvance {n : Nat} : SameClaim s (initializeAdvance n s) := by
  unfold Machine.initializeAdvance
  split
  · exact ⟨rfl, rfl⟩
  · unfold initializeDone
    exact after (endPending.trans finishRebuild) rfl rfl

theorem initializeFailed : SameClaim s (initializeFailed s) := endPending.trans halt

/-- The journal's own work leaves the held service read and the presented claim as they are. -/
theorem workResult {r : MediaResult} : SameClaim s (workResult r s) := by
  unfold Machine.workResult
  split
  · exact refl s
  · exact rebuildRead
  · exact halt
  · exact refl s
  · exact appendDone
  · exact appendFailed
  · exact appendFailed
  · exact refl s
  · exact compactionAdvance
  · exact failCompaction
  · exact failCompaction
  · exact refl s
  · exact initializeAdvance
  · exact initializeFailed
  · exact initializeFailed
  · exact refl s

end SameClaim

end Sys2Proof.Machine

/-! ### The single claim of the journal and the service read (O22) -/

namespace Sys2Proof.Machine

open Sys2Proof.Safety

section Claim

variable {s : State} {h : Half} {k : Nat} {r : MediaResult}

theorem slotAddress_eq (h : Half) (k : Nat) : slotAddress h k = (match h with | .a => 3 | .b => 2051) + k := by
  cases h <;> simp [slotAddress, halfBase]

theorem journalRequest_of_service (hp : s.journal.presented = some .service) (hs : s.journal.service = some (h, k)) :
    journalRequest s = some (.read (slotAddress h k)) := by
  simp only [journalRequest, hp, hs, Option.map_some]

theorem journalRequest_of_work (hp : s.journal.presented = some .work) : journalRequest s = workRequest s := by
  simp only [journalRequest, hp]

/-- The next claim: the held service read first, then the work's next operation (R137). -/
def nextClaim (s : State) : Option Presented :=
  if s.journal.service ≠ none then some .service else if workRequest s = none then none else some .work

/-- With no operation presented the next claim is presented. -/
theorem presentNext_claim (hp : s.journal.presented = none) :
    presentNext s = { s with journal := { s.journal with presented := nextClaim s } } := by
  unfold nextClaim
  by_cases hs : s.journal.service = none
  · rw [if_neg (by simp [hs])]
    by_cases hw : workRequest s = none
    · rw [if_pos hw, presentNext_of_nothing hs hw, ← hp]
    · rw [if_neg hw, presentNext_of_work hp hs hw]
  · rw [if_pos hs, presentNext_of_service hp hs]

/-- The journal's claim has ended, and the next one is not presented yet (R137). -/
def claimEnded (s : State) : State := { s with journal := { s.journal with presented := none } }

theorem journalResult_of_work (hp : s.journal.presented = some .work) :
    journalResult r s = presentNext (workResult r (claimEnded s)) := by
  simp only [journalResult, hp, claimEnded]

theorem journalResult_of_service (hp : s.journal.presented = some .service) :
    journalResult r s = presentNext (serviceEnd r (claimEnded s)) := by
  simp only [journalResult, hp, claimEnded]

/-- The response of READ_JOURNAL_SLOT after a decode (R137, 12.4). -/
theorem slotResults_of_read (o : DecodeOutcome) (d : LineData) :
    slotResults (.read o d) =
      [byteAt d 0] ++ be32 (read32 d 1) ++ be32 (read32 d 5) ++ be16 (read16 d 9) ++ be16 (read16 d 11)
        ++ be16 (read16 d 13) ++ [if read16 d 13 = checkValue (d.toList.take 13) then 1 else 0]
        ++ n8 (classCode o.cls) ++ o.counts.toList.map fun c => BitVec.ofNat 8 (countCode c) := by
  have hflag : n8 (flagCode (recordOf d).checkMatches) =
      [if read16 d 13 = checkValue (d.toList.take 13) then 1 else 0] := by
    by_cases hcheck : read16 d 13 = checkValue (d.toList.take 13)
    · simp [recordOf, flagCode, n8, hcheck]
    · simp [recordOf, flagCode, n8, hcheck]
  have hcounts : (o.counts.toList.flatMap fun c => n8 (countCode c)) =
      o.counts.toList.map fun c => BitVec.ofNat 8 (countCode c) := List.map_eq_flatMap.symm
  rw [slotResults, hflag, hcounts]
  rfl

/-- The end of the service read (R137, R196). -/
theorem journalResult_service (hp : s.journal.presented = some .service) {code : Byte} (hpending : s.port.command = .pending code) :
    journalResult r s =
      { s with
        journal :=
          { s.journal with service := none, presented := if workRequest s = none then none else some .work }
        port := { s.port with command := .answered { status := .done, code := code, results := slotResults r } } } := by
  rw [journalResult_of_service hp, claimEnded, serviceEnd, endPending]
  simp only [hpending]
  rw [presentNext_claim (by rfl)]
  rfl

/-- Settles O22, by what is presented. -/
theorem serviceReadAnswers : Obligations.ServiceReadAnswers := by
  refine ⟨fun s => ⟨fun hp => by simp only [journalRequest, hp], journalRequest_of_work, presentNext_of_presented,
    fun hp => ⟨presentNext_of_service hp, fun hs => ⟨presentNext_of_work hp hs, presentNext_of_nothing hs⟩⟩⟩,
    fun s h k hs => ?_⟩
  intro slotRead
  have hslot : slotRead = some (.read (slotAddress h k)) := by rw [slotAddress_eq] <;> rfl
  refine ⟨fun hp r => ?held, fun hp hpending => ?ends⟩
  case held =>
    intro worked
    have kept := SameClaim.workResult (r := r) (s := claimEnded s)
    have hservice := kept.service.trans hs
    have hworked : worked = { workResult r (claimEnded s) with
        journal := { (workResult r (claimEnded s)).journal with
          presented := some .service } } :=
      (journalResult_of_work hp).trans (presentNext_of_service kept.presented (by simp [hservice]))
    have hpresented : worked.journal.presented = some .service := by rw [hworked]
    have hserves : worked.journal.service = some (h, k) := by rw [hworked]; exact hservice
    exact ⟨hserves, hpresented, hslot ▸ journalRequest_of_service hpresented hserves⟩
  case ends =>
    intro ended
    refine ⟨hslot ▸ journalRequest_of_service hp hs, fun results => ?_, fun o d => ?_, ?_⟩
    · by_cases hw : workRequest s = none
      · have hnone : (ended results).journal.presented = none := if_pos hw
        rw [hw]
        simp only [journalRequest, hnone]
      · exact journalRequest_of_work (s := ended results) (if_neg hw)
    · rw [← slotResults_of_read]
      exact journalResult_service hp hpending
    · exact journalResult_service hp hpending

end Claim

end Sys2Proof.Machine

/-! ### The way into service, and INITIALIZE_JOURNAL's writes (O21) -/

namespace Sys2Proof.Machine

open Sys2Proof.Safety

section Service

variable {s : State} {n : Nat} {r : MediaResult}

theorem finishRebuild_of_up (hpwarn : s.pins.pwarn = false) :
    finishRebuild s = { raiseRebuildDone 1 s with opState := .ready } := by
  refine if_neg ?_
  rw [raiseRebuildDone, raise_pins, hpwarn]
  exact Bool.false_ne_true

section Asserted

variable (hpwarn : s.pins.pwarn = true)
include hpwarn

theorem finishRebuild_of_pwarn : finishRebuild s = drainCheck { raiseRebuildDone 1 s with opState := .quiescing } := by
  refine if_pos ?_
  rw [raiseRebuildDone, raise_pins, hpwarn]

theorem finishRebuild_of_drained (hqueue : s.queue = []) (hjournal : s.journal.state = .idle ∨ s.journal.state = .failed) :
    finishRebuild s = raise .quietReached none none none [] { raiseRebuildDone 1 s with opState := .quiet } := by
  rw [finishRebuild_of_pwarn hpwarn]
  refine if_pos ⟨rfl, (raise_queue ..).trans hqueue, ?_⟩
  show (raiseRebuildDone 1 s).journal.state = .idle ∨ (raiseRebuildDone 1 s).journal.state = .failed
  rw [raiseRebuildDone, raise_journal]
  exact hjournal

theorem finishRebuild_of_jobs (hqueue : s.queue ≠ []) :
    finishRebuild s = { raiseRebuildDone 1 s with opState := .quiescing } := by
  rw [finishRebuild_of_pwarn hpwarn]
  refine if_neg fun hdrained => hqueue ?_
  exact (raise_queue ..).symm.trans hdrained.2.1

end Asserted

theorem workRequest_of_none (h : s.journal.work = .none) : workRequest s = none := by
  simp only [workRequest, h]

/-- With nothing due and nothing held nothing is presented (R137). -/
theorem presentNext_of_idle (hwork : s.journal.work = .none) (hservice : s.journal.service = none) : presentNext s = s :=
  presentNext_of_nothing hservice (workRequest_of_none hwork)

theorem finishRebuild_journal : (finishRebuild s).journal = s.journal := by
  unfold finishRebuild enterService
  split
  · exact SameJournal.drainCheck.journal.trans (raise_journal ..)
  · exact raise_journal ..

section Formatting

variable (hwork : s.journal.work = .formatting n)
include hwork

theorem workRequest_of_formatting : workRequest s = some (initializeRequest s n) := by
  simp only [workRequest, hwork]

theorem workResult_of_formatting_done : workResult .done s = initializeAdvance n s := by
  simp only [workResult, hwork]

theorem workResult_of_formatting_failed (hr : r = .exhausted ∨ r = .timeout) : workResult r s = initializeFailed s := by
  rcases hr with rfl | rfl <;> simp only [workResult, hwork]

end Formatting

/-- The response of a pending command is held (R189, R196). -/
def answeredWith (code : Byte) (results : List Byte) (s : State) : State :=
  { s with port := { s.port with command := .answered { status := .done, code := code, results := results } } }

theorem endPending_of_pending {results : List Byte} {code : Byte} (h : s.port.command = .pending code) :
    endPending results s = answeredWith code results s := by
  simp only [endPending, h, answeredWith]

/-- The state at the last DONE of INITIALIZE_JOURNAL, before its answer (R151). -/
def initialized (s : State) : State :=
  { s with
    journal :=
      { s.journal with
        state := .idle, active := some .a, generation := 1, tail := 0, bitmap := 0, uncertain := none, work := .none,
        presented := none } }

theorem halt_journal {cause : HaltCause} : (halt cause s).journal = { s.journal with work := .none } := raise_journal ..

/-- Settles O21, by the index of the write. -/
theorem initializeJournalWrites : Obligations.InitializeJournalWrites := by
  refine ⟨fun s => ⟨rfl, fun k hk => ?_, fun k hk => ?_, rfl, rfl, rfl⟩, fun s n hwork hp hs hpending => ?_⟩
  · have hfirst : 1 + k ≠ 0 := by omega
    have hlast : 1 + k ≤ 2045 := by omega
    have hline : slotAddress .b (1 + k - 1) = 2051 + k := by simp [slotAddress, halfBase]
    rw [initializeRequest, if_neg hfirst, if_pos hlast, hline]
  · have hfirst : 2046 + k ≠ 0 := by omega
    have hbefore : ¬ 2046 + k ≤ 2045 := by omega
    have hlast : 2046 + k ≤ 4090 := by omega
    have hline : slotAddress .a (2046 + k - 2046) = 3 + k := by simp [slotAddress, halfBase]
    rw [initializeRequest, if_neg hfirst, if_neg hbefore, if_pos hlast, hline]
  · have hdone : journalResult .done s = presentNext (initializeAdvance n (claimEnded s)) := by
      rw [journalResult_of_work hp, workResult_of_formatting_done (s := claimEnded s) hwork]
    refine ⟨workRequest_of_formatting hwork, fun hn => ?next, fun hn => ?last, fun r hr => ?failed⟩
    case next =>
      have hmore : initializeAdvance n (claimEnded s) =
          { claimEnded s with journal := { (claimEnded s).journal with work := .formatting (n + 1) } } := if_pos hn
      exact hdone.trans ((congrArg presentNext hmore).trans (presentNext_of_work (by rfl) hs (by simp [workRequest])))
    case last =>
      intro done
      have hends := endPending_of_pending (results := n8 1) (s := initialized s) hpending
      have hfinish : initializeAdvance n (claimEnded s) = finishRebuild (answeredWith 17 (n8 1) (initialized s)) := by
        subst hn
        exact congrArg finishRebuild hends
      have hjournal := hfinish ▸ finishRebuild_journal (s := answeredWith 17 (n8 1) (initialized s))
      have hresult : journalResult .done s = finishRebuild (answeredWith 17 (n8 1) (initialized s)) := by
        rw [hdone, presentNext_of_idle (congrArg Journal.work hjournal) ((congrArg Journal.service hjournal).trans hs), hfinish]
      exact ⟨fun hpwarn => hresult.trans (finishRebuild_of_up hpwarn),
        fun hpwarn hqueue => hresult.trans (finishRebuild_of_drained hpwarn hqueue (.inl rfl)),
        fun hpwarn hqueue => hresult.trans (finishRebuild_of_jobs hpwarn hqueue)⟩
    case failed =>
      have hends := endPending_of_pending (results := n8 3) (s := claimEnded s) hpending
      have hhalts : workResult r (claimEnded s) = halt .initializeFailed (answeredWith 17 (n8 3) (claimEnded s)) :=
        (workResult_of_formatting_failed (s := claimEnded s) hwork hr).trans (congrArg (halt .initializeFailed) hends)
      have hjournal := halt_journal (s := answeredWith 17 (n8 3) (claimEnded s)) (cause := .initializeFailed)
      rw [journalResult_of_work hp, hhalts,
        presentNext_of_idle (congrArg Journal.work hjournal) ((congrArg Journal.service hjournal).trans hs)]
      rfl

end Service

end Sys2Proof.Machine

/-! ### The rebuild: header selection, the bitmap reads and the end of replay (O53, O55) -/

namespace Sys2Proof.Machine

open Sys2Proof.Safety

section Rebuild

variable {s t : State} {o : DecodeOutcome} {d : LineData} {step : RebuildStep} {r : MediaResult}

/-- What is presented next where the work goes on (R137). -/
def claimOf (s : State) : Option Presented := if s.journal.service = none then some .work else some .service

theorem presentNext_of_more (hp : s.journal.presented = none) (hw : workRequest s ≠ none) :
    presentNext s = { s with journal := { s.journal with presented := claimOf s } } := by
  unfold claimOf
  by_cases hs : s.journal.service = none
  · rw [if_pos hs, presentNext_of_work hp hs hw]
  · rw [if_neg hs, presentNext_of_service hp hs]

/-- Where the work ends with a notice, only a held service read is presented next (R137). -/
theorem presentNext_raise {k hostLine spare old values} (hp : s.journal.presented = none) (hw : s.journal.work = .none) :
    presentNext (raise k hostLine spare old values s) =
      raise k hostLine spare old values
        { s with journal := { s.journal with presented := s.journal.service.map fun _ => .service } } := by
  have hj : (raise k hostLine spare old values s).journal = s.journal := raise_journal ..
  have hwork : workRequest (raise k hostLine spare old values s) = none := workRequest_of_none (by rw [hj, hw])
  have hclaim : nextClaim (raise k hostLine spare old values s) = s.journal.service.map fun _ => .service := by
    rw [nextClaim, hwork, hj]
    cases s.journal.service <;> rfl
  rw [presentNext_claim (s := raise k hostLine spare old values s) (by rw [hj, hp]), hclaim, hj]
  exact (patrolOnly_raise.journal_comm (s := s) _).symm

/-! #### The reads -/

theorem workRequest_of_rebuild (hwork : s.journal.work = .rebuild step) {h : Half} (hactive : s.journal.active = some h) :
    workRequest s =
      match step with
      | .headerA => some (.read (headerAddress .a))
      | .headerB _ => some (.read (headerAddress .b))
      | .bitmapLow => some (.read (bitmapAddress h false))
      | .bitmapHigh _ => some (.read (bitmapAddress h true))
      | .record => some (.read (slotAddress h s.journal.tail)) := by
  cases step <;> simp only [workRequest, hwork, hactive, Option.map_some]

section Work

variable (hwork : s.journal.work = .rebuild step)
include hwork

theorem workResult_of_rebuild_read : workResult (.read o d) s = rebuildRead step o d s := by
  simp only [workResult, hwork]

theorem workResult_of_rebuild_timeout : workResult .timeout s = halt .mediaTimeout s := by
  simp only [workResult, hwork]

end Work

/-- A valid header (R121, R145). -/
theorem headerOf_eq_some_iff {straps : BitVec 2} {g : BitVec 32} :
    headerOf straps o d = some g ↔
      o.cls ≠ .lost ∧ d.toList.take 4 = [0x4B, 0x4A, 0x52, 0x31] ∧ read16 d 9 = checkValue (d.toList.take 9) ∧
        (byteAt d 8).toNat = straps.toNat ∧ g ≠ 0 ∧ read32 d 4 = g := by
  have hcode : byteAt d 8 = BitVec.ofNat 8 straps.toNat ↔ (byteAt d 8).toNat = straps.toNat := by
    have := straps.isLt
    rw [← BitVec.toNat_inj, BitVec.toNat_ofNat, Nat.mod_eq_of_lt (by omega)]
  unfold headerOf headerMatches
  simp only [Option.ite_none_right_eq_some, Option.some.injEq, Bool.and_eq_true, bne_iff_ne, beq_iff_eq, hcode, headerMarker]
  constructor
  · rintro ⟨⟨hlost, ⟨⟨hmarker, hcheck⟩, hsize⟩, hzero⟩, rfl⟩
    exact ⟨hlost, hmarker, hcheck, hsize, hzero, rfl⟩
  · rintro ⟨hlost, hmarker, hcheck, hsize, hzero, rfl⟩
    exact ⟨⟨hlost, ⟨⟨hmarker, hcheck⟩, hsize⟩, hzero⟩, rfl⟩

/-- Settles O53, by the read and the halves whose headers are valid. -/
theorem headerSelection : Obligations.HeaderSelection := by
  intro o d s hp claim header decoded
  have hdecoded : ∀ step, s.journal.work = .rebuild step → decoded = presentNext (rebuildRead step o d (claimEnded s)) :=
    fun step hwork => by
      rw [← workResult_of_rebuild_read (s := claimEnded s) hwork]
      exact journalResult_of_work hp
  refine ⟨fun g => headerOf_eq_some_iff, fun hwork => ?headerA, fun a hwork => ?headerB⟩
  case headerA =>
    have hnext : decoded =
        { s with journal := { s.journal with work := .rebuild (.headerB header), presented := claim } } :=
      (hdecoded _ hwork).trans (presentNext_of_more (by rfl) (by simp [workRequest, rebuildRead]))
    refine ⟨?_, hnext, ?_⟩
    · rw [journalRequest_of_work hp, workRequest, hwork]
      rfl
    · rw [hnext]
      rfl
  case headerB =>
    intro chooses
    have hselect : decoded = presentNext (selectHeader a header (claimEnded s)) := hdecoded _ hwork
    have chosen : ∀ h g, chooseHalf a header = some (h, g) → chooses h g := fun h g hchoice => by
      have hselected : selectHeader a header (claimEnded s) =
          { claimEnded s with
            journal :=
              { (claimEnded s).journal with active := some h, generation := g, tail := 0, work := .rebuild .bitmapLow } } := by
        simp only [selectHeader, hchoice]
      have hnext := hselect.trans ((congrArg presentNext hselected).trans
        (presentNext_of_more (by rfl) (by simp [workRequest])))
      refine ⟨hnext, ?_, ?_⟩
      · rw [hnext]
        rfl
      · rw [hnext]
        cases h <;> rfl
    refine ⟨fun ha hb => ?_, fun ga ha hb => chosen _ _ ?_, fun gb ha hb => chosen _ _ ?_,
      fun ga gb ha hb => ⟨fun hle => chosen _ _ ?_, fun hlt => chosen _ _ ?_⟩⟩
    · have hnone : selectHeader a header (claimEnded s) =
          raiseRebuildDone 2
            { claimEnded s with opState := .unformatted, journal := { (claimEnded s).journal with work := .none } } := by
        simp only [selectHeader, ha, hb, chooseHalf]
      rw [hselect, hnone, raiseRebuildDone, presentNext_raise (by rfl) (by rfl)]
      rfl
    · simp only [ha, hb, chooseHalf]
    · simp only [ha, hb, chooseHalf]
    · simp only [ha, hb, chooseHalf, if_neg (Nat.not_lt.mpr hle)]
    · simp only [ha, hb, chooseHalf, if_pos hlt]

end Rebuild

end Sys2Proof.Machine

/-! ### The bitmap reads and the ends of the rebuild (O55) -/

namespace Sys2Proof.Machine

open Sys2Proof.Safety

section RebuildEnds

variable {s t : State} {carries : Bool} {cause : HaltCause}

theorem discardFlags_congr (h : t.lineMap = s.lineMap) : discardFlags t = discardFlags s := by
  have hspare : spareState t = spareState s := by
    unfold spareState
    rw [h]
  rw [discardFlags, discardFlags, hspare]

theorem presentedEntries_congr (h : t.lineMap = s.lineMap) : presentedEntries t = presentedEntries s := by
  have hentry : entryOfSpare t = entryOfSpare s := by
    unfold entryOfSpare
    rw [h]
  rw [presentedEntries, presentedEntries, hentry]

theorem newCompaction_flags : (newCompaction carries s).flags = discardFlags s := by
  simp only [newCompaction]

theorem startCompaction_of_room (hroom : s.journal.generation ≠ BitVec.allOnes 32) :
    startCompaction carries s =
      { s with journal := { s.journal with state := .compacting, work := .compact (newCompaction carries s) } } :=
  if_neg hroom

theorem carriedRecord_false (p : Option AppendRecord) : carriedRecord false p = none := by
  cases p <;> rfl

/-- A halt of the rebuild's work, and what is presented next (R149). -/
theorem presentNext_halt (hp : s.journal.presented = none) :
    presentNext (halt cause s) =
      raiseRebuildDone 3
        { s with
          opState := .halted
          haltCause := cause
          journal := { s.journal with work := .none, presented := s.journal.service.map fun _ => .service } } := by
  unfold halt raiseRebuildDone
  exact presentNext_raise
    (s := { s with opState := .halted, haltCause := cause, journal := { s.journal with work := .none } }) hp rfl

/-- Settles O55, by the read and by the free slots at the end of replay. -/
theorem rebuildEnds : Obligations.RebuildEnds := by
  refine ⟨fun step s hwork hp => ?reads, fun s => ?replayed⟩
  case reads =>
    intro claim halted
    have hhalts : ∀ cause, presentNext (halt cause (claimEnded s)) = halted cause := fun cause =>
      presentNext_halt (s := claimEnded s) rfl
    refine ⟨?_, fun h o d low hactive => ?_⟩
    · rw [journalResult_of_work hp, workResult_of_rebuild_timeout (s := claimEnded s) hwork, hhalts]
    · intro decoded base
      have hdecoded : decoded = presentNext (rebuildRead step o d (claimEnded s)) := by
        rw [← workResult_of_rebuild_read (s := claimEnded s) hwork]
        exact journalResult_of_work hp
      refine ⟨fun hstep => ⟨fun hcls => ?_, fun hcls => ?_⟩, fun hstep => ⟨fun hcls => ?_, fun hcls => ?_⟩⟩
      all_goals subst hstep
      · exact hdecoded.trans ((congrArg presentNext (if_pos hcls)).trans (hhalts _))
      · have hnext := hdecoded.trans ((congrArg presentNext (if_neg hcls)).trans
          (presentNext_of_more (by rfl) (by simp [workRequest, claimEnded, hactive])))
        refine ⟨hnext, ?_⟩
        have hstep : decoded.journal.work = .rebuild (.bitmapHigh (bitmapFlags d)) := by rw [hnext]
        have hhalf : decoded.journal.active = some h := by rw [hnext]; exact hactive
        refine (workRequest_of_rebuild hstep hhalf).trans ?_
        cases h <;> rfl
      · exact hdecoded.trans ((congrArg presentNext (if_pos hcls)).trans (hhalts _))
      · obtain ⟨m, hm⟩ := applyBitmap_eq (bitmapFlags d ++ low) (claimEnded s)
        have hentries : m.entries = s.lineMap.entries := by
          have h := applyBitmap_entries (s := claimEnded s) (bitmapFlags d ++ low)
          rwa [hm] at h
        have hspares : ∀ i : Spare, m.spares[i.val] =
            if (bitmapFlags d ++ low).getLsbD i.val then .discarded else spareState s i := fun i => by
          have h := spareState_applyBitmap (s := claimEnded s) (bitmapFlags d ++ low) i
          rwa [hm] at h
        have happlied : rebuildRead (.bitmapHigh low) o d (claimEnded s) =
            { claimEnded s with
              lineMap := { s.lineMap with spares := m.spares }
              journal := { (claimEnded s).journal with bitmap := bitmapFlags d ++ low, work := .rebuild .record } } := by
          have hmap : ({ s.lineMap with spares := m.spares } : LineMap) = m := by
            cases m
            cases hentries
            rfl
          rw [hmap]
          exact (if_neg hcls).trans hm
        have hnext := hdecoded.trans ((congrArg presentNext happlied).trans
          (presentNext_of_more (by rfl) (by simp [workRequest, claimEnded, hactive])))
        refine ⟨m.spares, fun i => (hspares i).trans ?_, hnext, ?_⟩
        · rw [BitVec.getLsbD_append]
        · have hstep : decoded.journal.work = .rebuild .record := by rw [hnext]
          have hhalf : decoded.journal.active = some h := by rw [hnext]; exact hactive
          have htail : decoded.journal.tail = s.journal.tail := by rw [hnext]; rfl
          refine (workRequest_of_rebuild hstep hhalf).trans ?_
          simp only [htail]
          cases h <;> rfl
  case replayed =>
    intro compacts repaired
    have hrepaired : endReplay true s = startCompaction false repaired := rfl
    have hcompacts : ∀ t : State, t.lineMap = s.lineMap → t.journal = s.journal →
        s.journal.generation ≠ BitVec.allOnes 32 →
        compacts (startCompaction false t) ∧ (startCompaction false t).notices = t.notices := fun t hmap hjournal hroom => by
      rw [startCompaction_of_room (hjournal ▸ hroom)]
      refine ⟨⟨newCompaction false t, ?_, ?_, rfl, ?_, ?_, ?_⟩, rfl⟩
      · rw [newCompaction, hjournal]
      · exact newCompaction_flags.trans (discardFlags_congr hmap)
      · simp only [newCompaction, carriedRecord_false, presentedEntries_congr hmap, Nat.add_zero]
      · simp only [newCompaction, carriedRecord_false, presentedEntries_congr hmap]
      · rw [hjournal]
    refine ⟨fun hfree => ?_, fun hfew => if_pos hfew, hrepaired, fun hroom => ⟨fun hfew => ?_, ?_⟩⟩
    · intro done
      have hfinish : endReplay false s = finishRebuild { s with journal := { s.journal with state := .idle, work := .none } } :=
        if_neg (Nat.not_lt.mpr hfree)
      exact ⟨fun hpwarn => hfinish.trans (finishRebuild_of_up hpwarn),
        fun hpwarn hqueue => hfinish.trans (finishRebuild_of_drained hpwarn hqueue (.inl rfl)),
        fun hpwarn hqueue => hfinish.trans (finishRebuild_of_jobs hpwarn hqueue)⟩
    · have hstarts : endReplay false s = startCompaction false s := if_pos hfew
      rw [hstarts]
      exact hcompacts s rfl rfl hroom
    · rw [hrepaired]
      exact hcompacts repaired (raise_lineMap ..) (raise_journal ..) hroom

end RebuildEnds

end Sys2Proof.Machine

/-! ### The judgement of a replayed record (O54) -/

namespace Sys2Proof.Machine

open Sys2Proof.Safety

section Judgement

variable {s : State} {o : DecodeOutcome} {d : LineData} {r : RawRecord} {a : AppendRecord} {m : LineMap} {new old : Spare}
  {lines : Nat}

/-! #### The rows of R147 -/

theorem judgeRecord_of_lost (h : o.cls = .lost) : judgeRecord s o r = .torn := if_pos h

section Read

variable (hlost : o.cls ≠ .lost)
include hlost

theorem judgeRecord_of_blank (h : r.kind = 0) : judgeRecord s o r = .clean := (if_neg hlost).trans (if_pos h)

theorem judgeRecord_of_unknown (h : 3 < r.kind.toNat) : judgeRecord s o r = .torn := by
  have hzero : r.kind ≠ 0 := fun h0 => by simp [h0] at h
  rw [judgeRecord, if_neg hlost, if_neg hzero, if_pos h]

/-- A kind code that is not 0 is one of the three, or none. -/
theorem judgeRecord_of_mismatch (hzero : r.kind ≠ 0) (h : r.checkMatches = false) : judgeRecord s o r = .torn := by
  rw [judgeRecord, if_neg hlost, if_neg hzero, if_pos h, ite_self]

variable (hkind : r.kind = 1 ∨ r.kind = 2 ∨ r.kind = 3) (hcheck : r.checkMatches = true)
include hkind hcheck

theorem judgeRecord_of_whole :
    judgeRecord s o r =
      if r.generation ≠ s.journal.generation then .clean
      else
        match consistentRecord (hostLines s) r with
        | some a => if recordFits s a then .apply a else .torn
        | none => .torn := by
  have hzero : r.kind ≠ 0 := by rcases hkind with h | h | h <;> rw [h] <;> decide
  have hthree : ¬ 3 < r.kind.toNat := by rcases hkind with h | h | h <;> rw [h] <;> decide
  have hmatch : ¬ r.checkMatches = false := by simp [hcheck]
  unfold judgeRecord
  rw [if_neg hlost, if_neg hzero, if_neg hthree, if_neg hmatch] <;> rfl

theorem judgeRecord_of_other_generation (h : r.generation ≠ s.journal.generation) : judgeRecord s o r = .clean := by
  rw [judgeRecord_of_whole hlost hkind hcheck, if_pos h]

variable (hgeneration : r.generation = s.journal.generation)
include hgeneration

theorem judgeRecord_of_inconsistent (h : consistentRecord (hostLines s) r = none) : judgeRecord s o r = .torn := by
  rw [judgeRecord_of_whole hlost hkind hcheck, if_neg (not_not_intro hgeneration), h]

theorem judgeRecord_of_consistent (h : consistentRecord (hostLines s) r = some a) :
    judgeRecord s o r = if recordFits s a then .apply a else .torn := by
  rw [judgeRecord_of_whole hlost hkind hcheck, if_neg (not_not_intro hgeneration), h]

end Read

/-! #### Consistency (R123) -/

theorem consistentRecord_of_no_spare (h : 1024 ≤ r.newSpare.toNat) : consistentRecord lines r = none := by
  unfold consistentRecord
  rw [spareOf_of_le h]
  split
  · cases ‹none = some _›
  · cases ‹none = some _›
  · cases ‹none = some _›
  · rfl

section Spare

variable (hnew : r.newSpare.toNat = new.val)
include hnew

theorem consistentRecord_of_retire (hkind : r.kind = 1) :
    consistentRecord lines r = if r.hostLine.toNat < lines then some (.retire r.hostLine.toNat new) else none := by
  simp [consistentRecord, hkind, spareOf_of_eq hnew]

theorem consistentRecord_of_reretire (hkind : r.kind = 2) :
    consistentRecord lines r =
      match spareOf r.oldSpare with
      | some o => if r.hostLine.toNat < lines ∧ new ≠ o then some (.reretire r.hostLine.toNat new o) else none
      | none => none := by
  simp [consistentRecord, hkind, spareOf_of_eq hnew] <;> rfl

theorem consistentRecord_of_discard (hkind : r.kind = 3) : consistentRecord lines r = some (.discard new) := by
  simp [consistentRecord, hkind, spareOf_of_eq hnew]

end Spare

theorem consistentRecord_of_beyond (hkind : r.kind = 1 ∨ r.kind = 2) (h : lines ≤ r.hostLine.toNat) :
    consistentRecord lines r = none := by
  by_cases hspare : 1024 ≤ r.newSpare.toNat
  · exact consistentRecord_of_no_spare hspare
  · have hnew : r.newSpare.toNat = (⟨r.newSpare.toNat, Nat.lt_of_not_le hspare⟩ : Spare).val := rfl
    have hno : ¬ r.hostLine.toNat < lines := Nat.not_lt.mpr h
    rcases hkind with hkind | hkind
    · rw [consistentRecord_of_retire hnew hkind, if_neg hno]
    · rw [consistentRecord_of_reretire hnew hkind]
      cases spareOf r.oldSpare with
      | none => rfl
      | some o => exact if_neg fun hc => hno hc.1

/-! #### The effect of the verdict -/

theorem replayRecord_of_torn (h : judgeRecord s o (recordOf d) = .torn) : replayRecord o d s = endReplay true s := by
  simp only [replayRecord, h]

theorem replayRecord_of_clean (h : judgeRecord s o (recordOf d) = .clean) : replayRecord o d s = endReplay false s := by
  simp only [replayRecord, h]

/-- A record is applied and replay goes on, or ends after slot 2044 (R147). -/
theorem replayRecord_of_apply (h : judgeRecord s o (recordOf d) = .apply a)
    (happly : applyRecord (recordOf d).generation a s = { s with lineMap := m }) :
    replayRecord o d s =
      if s.journal.tail + 1 < 2045 then
        { s with lineMap := m, journal := { s.journal with tail := s.journal.tail + 1 } }
      else endReplay false { s with lineMap := m, journal := { s.journal with tail := s.journal.tail + 1 } } := by
  simp only [replayRecord, h, happly]

theorem applyRecord_retire (generation : BitVec 32) {line : Nat} (hnew : ∀ x ∈ s.lineMap.entries, x.hostLine ≠ line) :
    applyRecord generation (.retire line new) s =
      { s with
        lineMap :=
          { entries := s.lineMap.entries ++ [{ hostLine := line, spare := new, origin := .replay, generation := generation }]
            spares := s.lineMap.spares.set new.val .inUse } } := by
  have hnone : mapEntry s line = none := List.find?_eq_none.mpr fun x hx => by simpa using hnew x hx
  have hno : ¬ (mapEntry s line).isSome = true := by simp [hnone]
  simp only [applyRecord, putEntry, if_neg hno]
  rfl

theorem applyRecord_reretire (generation : BitVec 32) {line : Nat} (hmapped : (mapEntry s line).map MapEntry.spare = some old) :
    applyRecord generation (.reretire line new old) s =
      { s with
        lineMap :=
          { entries :=
              s.lineMap.entries.map fun x =>
                if x.hostLine = line then { hostLine := line, spare := new, origin := .replay, generation := generation } else x
            spares := (s.lineMap.spares.set new.val .inUse).set old.val .discarded } } := by
  have hsome : (mapEntry s line).isSome = true := by
    obtain ⟨e, he, -⟩ := Option.map_eq_some_iff.mp hmapped
    rw [he]
    rfl
  simp only [applyRecord, putEntry, if_pos hsome]
  rfl

/-- A record that names no retirement or discard that fits is torn (R123, R124). -/
theorem judgeRecord_of_unfit (hlost : o.cls ≠ .lost) (hkind : r.kind = 1 ∨ r.kind = 2 ∨ r.kind = 3)
    (hcheck : r.checkMatches = true) (hgeneration : r.generation = s.journal.generation)
    (h : ∀ a, consistentRecord (hostLines s) r = some a → recordFits s a = false) : judgeRecord s o r = .torn := by
  cases hc : consistentRecord (hostLines s) r with
  | none => exact judgeRecord_of_inconsistent hlost hkind hcheck hgeneration hc
  | some a => rw [judgeRecord_of_consistent hlost hkind hcheck hgeneration hc, h a hc]; rfl

theorem judgeRecord_of_fit (hlost : o.cls ≠ .lost) (hkind : r.kind = 1 ∨ r.kind = 2 ∨ r.kind = 3)
    (hcheck : r.checkMatches = true) (hgeneration : r.generation = s.journal.generation)
    (h : consistentRecord (hostLines s) r = some a) (hfits : recordFits s a = true) : judgeRecord s o r = .apply a := by
  rw [judgeRecord_of_consistent hlost hkind hcheck hgeneration h, if_pos hfits]

/-- The new spare of a record that fits is FREE (R124). -/
theorem recordFits_of_not_free (hkind : r.kind = 1 ∨ r.kind = 2 ∨ r.kind = 3) (hnew : r.newSpare.toNat = new.val)
    (hfree : spareState s new ≠ .free) (h : consistentRecord lines r = some a) : recordFits s a = false := by
  refine Bool.eq_false_iff.mpr fun hfits => hfree ?_
  rcases hkind with hkind | hkind | hkind
  · rw [consistentRecord_of_retire hnew hkind] at h
    obtain ⟨-, ha⟩ := Option.ite_none_right_eq_some.mp h
    cases ha
    exact (recordFits_retire_iff.mp hfits).2
  · rw [consistentRecord_of_reretire hnew hkind] at h
    cases hold : spareOf r.oldSpare with
    | none => simp [hold] at h
    | some old =>
      simp only [hold] at h
      obtain ⟨-, heq⟩ := Option.ite_none_right_eq_some.mp h
      cases heq
      exact (recordFits_reretire_iff.mp hfits).2
  · rw [consistentRecord_of_discard hnew hkind] at h
    cases h
    exact recordFits_discard_iff.mp hfits

/-- Settles O54, by the rows of R147. -/
theorem recordJudgement : Obligations.RecordJudgement := by
  intro h o d s hwork hp hactive _ decoded _ torn clean kind line _ applied _ _
  have hdecoded : decoded = presentNext (replayRecord o d (claimEnded s)) :=
    (journalResult_of_work hp).trans
      (congrArg presentNext (workResult_of_rebuild_read (s := claimEnded s) hwork))
  have tornOf : judgeRecord (claimEnded s) o (recordOf d) = .torn → torn := fun hj =>
    hdecoded.trans (congrArg presentNext (replayRecord_of_torn (s := claimEnded s) hj))
  have cleanOf : judgeRecord (claimEnded s) o (recordOf d) = .clean → clean := fun hj =>
    hdecoded.trans (congrArg presentNext (replayRecord_of_clean (s := claimEnded s) hj))
  have appliedOf : ∀ a entries spares, judgeRecord (claimEnded s) o (recordOf d) = .apply a →
      applyRecord (recordOf d).generation a (claimEnded s) =
        { claimEnded s with lineMap := { entries := entries, spares := spares } } → applied entries spares := by
    intro a entries spares hj happly
    have hreplay := hdecoded.trans (congrArg presentNext (replayRecord_of_apply (s := claimEnded s) hj happly))
    refine ⟨fun htail => ?_, fun htail => ?_⟩
    · have hmore : (claimEnded s).journal.tail + 1 < 2045 := Nat.succ_lt_succ htail
      have hnext := hreplay.trans ((congrArg presentNext (if_pos hmore)).trans
        (presentNext_of_more (by rfl) (by simp [workRequest, claimEnded, hactive, hwork])))
      have hstep : decoded.journal.work = .rebuild .record := by rw [hnext]; exact hwork
      have hhalf : decoded.journal.active = some h := by rw [hnext]; exact hactive
      have hslot : decoded.journal.tail = s.journal.tail + 1 := by rw [hnext]; rfl
      refine ⟨hnext, ?_, ?_⟩
      · rw [freeSlots, freeSlots, hslot]
        omega
      · refine (workRequest_of_rebuild hstep hhalf).trans ?_
        simp only [hslot]
    · have hlast : ¬ (claimEnded s).journal.tail + 1 < 2045 := fun hlt =>
        Nat.not_lt.mpr htail (Nat.lt_of_succ_lt_succ hlt)
      exact hreplay.trans (congrArg presentNext (if_neg hlast))
  have hcheckIff : (recordOf d).checkMatches = true ↔ read16 d 13 = checkValue (d.toList.take 13) := beq_iff_eq
  refine ⟨fun hlost => tornOf (judgeRecord_of_lost hlost), fun hlost hk => cleanOf (judgeRecord_of_blank hlost hk),
    fun hlost hk => tornOf (judgeRecord_of_unknown hlost hk),
    fun hlost hk hc => tornOf (judgeRecord_of_mismatch hlost hk (Bool.eq_false_iff.mpr fun h => hc (hcheckIff.mp h))),
    fun hwhole hk hg => cleanOf (judgeRecord_of_other_generation hwhole.1 hk (hcheckIff.mpr hwhole.2) hg),
    fun hwhole hg => ?_⟩
  obtain ⟨hlost, hcheck⟩ := hwhole
  rw [← hcheckIff] at hcheck
  have unfit : kind = 1 ∨ kind = 2 ∨ kind = 3 →
      (∀ a, consistentRecord (hostLines s) (recordOf d) = some a → recordFits (claimEnded s) a = false) → torn :=
    fun hk hno => tornOf (judgeRecord_of_unfit (s := claimEnded s) hlost hk hcheck hg hno)
  have fit : ∀ a entries spares, kind = 1 ∨ kind = 2 ∨ kind = 3 →
      consistentRecord (hostLines s) (recordOf d) = some a → recordFits (claimEnded s) a = true →
      applyRecord s.journal.generation a (claimEnded s) =
        { claimEnded s with lineMap := { entries := entries, spares := spares } } → applied entries spares :=
    fun a entries spares hk hsome hfits happly =>
      appliedOf a entries spares (judgeRecord_of_fit (s := claimEnded s) hlost hk hcheck hg hsome hfits)
        ((congrArg (applyRecord · a (claimEnded s)) hg).trans happly)
  refine ⟨fun hk hspare => unfit hk fun a ha => ?_, fun hk hline => unfit (hk.imp_right .inl) fun a ha => ?_,
    fun new hnew => ⟨fun hk hfree => unfit hk fun a ha => ?_, fun hk hfree => ?_,
      fun hk hline => ⟨fun hmapped => ?_, fun hunmapped hfree => ?_⟩,
      fun hk hline => ⟨fun hspare => ?_, fun old hold => ⟨fun hbad => ?_, fun hne hmapped hfree => ?_⟩⟩⟩⟩
  · rw [consistentRecord_of_no_spare hspare] at ha
    cases ha
  · rw [consistentRecord_of_beyond hk hline] at ha
    cases ha
  · exact recordFits_of_not_free (s := claimEnded s) hk hnew hfree ha
  · exact fit (.discard new) _ _ (.inr (.inr hk)) (consistentRecord_of_discard hnew hk)
      (recordFits_discard_iff.mpr hfree) rfl
  · have hsome : consistentRecord (hostLines s) (recordOf d) = some (.retire line new) :=
      (consistentRecord_of_retire hnew hk).trans (if_pos hline)
    refine unfit (.inl hk) fun a ha => Bool.eq_false_iff.mpr fun hfits => hmapped ?_
    cases hsome.symm.trans ha
    exact mapEntry_eq_none_iff.mp (recordFits_retire_iff.mp hfits).1
  · exact fit (.retire line new) _ _ (.inl hk) ((consistentRecord_of_retire hnew hk).trans (if_pos hline))
      (recordFits_retire_iff.mpr ⟨mapEntry_eq_none_iff.mpr hunmapped, hfree⟩)
      (applyRecord_retire (s := claimEnded s) s.journal.generation hunmapped)
  · refine unfit (.inr (.inl hk)) fun a ha => ?_
    rw [consistentRecord_of_reretire hnew hk, show spareOf (recordOf d).oldSpare = none from spareOf_of_le hspare] at ha
    cases ha
  · refine unfit (.inr (.inl hk)) fun a ha => Bool.eq_false_iff.mpr fun hfits => ?_
    rw [consistentRecord_of_reretire hnew hk, show spareOf (recordOf d).oldSpare = some old from spareOf_of_eq hold] at ha
    obtain ⟨⟨-, hne⟩, ha⟩ := Option.ite_none_right_eq_some.mp ha
    cases ha
    exact hbad.elim (fun h => hne h.symm) fun h => h (recordFits_reretire_iff.mp hfits).1
  · have hsome : consistentRecord (hostLines s) (recordOf d) = some (.reretire line new old) := by
      rw [consistentRecord_of_reretire hnew hk, show spareOf (recordOf d).oldSpare = some old from spareOf_of_eq hold]
      exact if_pos ⟨hline, hne.symm⟩
    exact fit (.reretire line new old) _ _ (.inr (.inl hk)) hsome (recordFits_reretire_iff.mpr ⟨hmapped, hfree⟩)
      (applyRecord_reretire (s := claimEnded s) s.journal.generation hmapped)

end Judgement

end Sys2Proof.Machine

/-! ### The append of a record and its ends (O56) -/

namespace Sys2Proof.Machine

open Sys2Proof.Safety

section Append

variable {s : State} {r : AppendRecord} {result : MediaResult} {carries : Bool} {h : Half}

section Work

variable (hwork : s.journal.work = .append)
include hwork

theorem workRequest_of_append (hactive : s.journal.active = some h) (hpending : s.journal.pending = some r) :
    workRequest s = some (.write (slotAddress h s.journal.tail) (recordLine s.journal.generation r)) := by
  simp only [workRequest, hwork, hactive, hpending]

theorem workResult_of_append_done : workResult .done s = appendDone s := by
  simp only [workResult, hwork]

theorem workResult_of_append_failed (hr : result = .exhausted ∨ result = .timeout) : workResult result s = appendFailed s := by
  rcases hr with rfl | rfl <;> simp only [workResult, hwork]

end Work

/-- The append has advanced: the slot is written and the record is no longer pending (R128). -/
def slotWritten (s : State) : State :=
  { s with journal := { s.journal with tail := s.journal.tail + 1, pending := none, work := .none } }

/-- The end of an append that is DONE, by the slots left free (R128). -/
theorem appendDone_eq (hpending : s.journal.pending = some r) :
    appendDone s =
      if 2045 - (s.journal.tail + 1) < 64 then
        startCompaction false (answerDone r s.journal.generation (slotWritten s))
      else journalIdle (answerDone r s.journal.generation (slotWritten s)) := by
  have hfree : freeSlots (answerDone r s.journal.generation (slotWritten s)) = 2045 - (s.journal.tail + 1) := by
    rw [freeSlots, SameJournal.answerDone.journal]
    rfl
  rw [← hfree]
  simp only [appendDone, hpending]
  rfl

/-- The slot of an append that failed is uncertain (R129). -/
def doubted (s : State) : State := { s with journal := { s.journal with uncertain := some s.journal.tail } }

theorem newCompaction_todo :
    (newCompaction carries s).todo = compactionWrites (presentedEntries s) (carriedRecord carries s.journal.pending) := by
  simp only [newCompaction]

theorem newCompaction_records :
    (newCompaction carries s).records =
      (presentedEntries s).length + (carriedRecord carries s.journal.pending).toList.length := by
  unfold newCompaction
  cases carriedRecord carries s.journal.pending <;> rfl

/-- The first write of a compaction is due when it starts (R130, R132). -/
theorem presentNext_startCompaction (hroom : s.journal.generation ≠ BitVec.allOnes 32) (hp : s.journal.presented = none) :
    presentNext (startCompaction carries s) =
      { s with
        journal :=
          { s.journal with state := .compacting, work := .compact (newCompaction carries s), presented := claimOf s } } := by
  rw [startCompaction_of_room hroom]
  refine presentNext_of_more hp ?_
  simp [workRequest, newCompaction_todo, compactionWrites]

/-- Settles O56, by the result of the write. -/
theorem appendEnds : Obligations.AppendEnds := by
  intro h r result s hwork hp hactive hpending j _ advanced answered
  have hdone : journalResult .done s = presentNext (appendDone (claimEnded s)) :=
    (journalResult_of_work hp).trans (congrArg presentNext (workResult_of_append_done (s := claimEnded s) hwork))
  have hfailed : result = .exhausted ∨ result = .timeout →
      journalResult result s = presentNext (appendFailed (claimEnded s)) := fun hr =>
    (journalResult_of_work hp).trans (congrArg presentNext (workResult_of_append_failed (s := claimEnded s) hwork hr))
  have hanswered : answerDone r j.generation (slotWritten (claimEnded s)) = answered := by
    cases r <;> rfl
  refine ⟨?_, fun hfree => ?_, fun hfew => ?_, hfailed, fun hr hroom => ?_⟩
  · rw [journalRequest_of_work hp, workRequest_of_append hwork hactive hpending]
  · rw [← hanswered]
    exact hdone.trans (congrArg presentNext ((appendDone_eq (s := claimEnded s) hpending).trans (if_neg (Nat.not_lt.mpr hfree))))
  · rw [← hanswered]
    exact hdone.trans (congrArg presentNext ((appendDone_eq (s := claimEnded s) hpending).trans (if_pos hfew)))
  · have hstart := presentNext_startCompaction (carries := true) (s := doubted (claimEnded s)) hroom rfl
    have hentries := presentedEntries_congr (s := s) (t := doubted (claimEnded s)) rfl
    have hcarried : carriedRecord true (doubted (claimEnded s)).journal.pending = carriedRecord true (some r) :=
      congrArg (carriedRecord true) hpending
    have htodo := newCompaction_todo (carries := true) (s := doubted (claimEnded s))
    have hrecords := newCompaction_records (carries := true) (s := doubted (claimEnded s))
    rw [hcarried, hentries] at htodo hrecords
    have hflags : (newCompaction true (doubted (claimEnded s))).flags = discardFlags s :=
      newCompaction_flags.trans (discardFlags_congr (s := s) (t := doubted (claimEnded s)) rfl)
    refine ⟨newCompaction true (doubted (claimEnded s)), rfl, rfl, hflags, fun line spare h => ?_,
      fun line spare old h => ?_, fun spare h => ?_, (hfailed hr).trans hstart⟩
    all_goals
      subst h
      exact ⟨htodo, by simpa only [carriedRecord, Option.toList_some, Option.toList_none, List.length_singleton,
        List.length_nil, Nat.add_zero] using hrecords⟩

end Append

end Sys2Proof.Machine

/-! ### A compaction: what it presents, its writes and its ends (O57) -/

namespace Sys2Proof.Machine

open Sys2Proof.Safety

section Compaction

variable {s : State} {c : Compaction} {w : CompactionWrite} {rest : List CompactionWrite} {r : AppendRecord} {h : Half}
  {cause : FailCause} {result : MediaResult}

/-! #### What a compaction presents (R10) -/

theorem entryOfSpare_eq_some {e : MapEntry} {i : Spare} (h : entryOfSpare s i = some e) :
    e ∈ s.lineMap.entries ∧ e.spare = i :=
  ⟨List.mem_of_find?_eq_some h, by simpa using List.find?_some h⟩

theorem mem_presentedEntries (hnodup : (s.lineMap.entries.map MapEntry.spare).Nodup) {e : MapEntry} :
    e ∈ presentedEntries s ↔ e ∈ s.lineMap.entries := by
  rw [presentedEntries, List.mem_filterMap]
  constructor
  · rintro ⟨i, -, hi⟩
    exact (entryOfSpare_eq_some hi).1
  · exact fun he => ⟨e.spare, List.mem_finRange _, entryOfSpare_of_mem he hnodup⟩

theorem presentedEntries_sorted : (presentedEntries s).Pairwise fun x y => x.spare < y.spare := by
  refine List.Pairwise.filterMap _ (fun i j hij x hx y hy => ?_) (List.pairwise_lt_finRange 1024)
  rw [(entryOfSpare_eq_some hx).2, (entryOfSpare_eq_some hy).2]
  exact hij

/-- The flags set by a fold over distinct bits are those of the elements that qualify. -/
theorem getLsbD_foldl_twoPow (p : Spare → Bool) (l : List Spare) (acc : BitVec 1024) (i : Spare) :
    (l.foldl (fun acc j => if p j then acc ||| BitVec.twoPow 1024 j.val else acc) acc).getLsbD i.val = true ↔
      acc.getLsbD i.val = true ∨ i ∈ l ∧ p i = true := by
  induction l generalizing acc with
  | nil => simp
  | cons j l ih =>
    have hbit : (BitVec.twoPow 1024 j.val).getLsbD i.val = true ↔ i = j := by
      simp [Fin.ext_iff, eq_comm]
    rw [List.foldl_cons, ih, List.mem_cons]
    by_cases hj : p j
    · rw [if_pos hj, BitVec.getLsbD_or, Bool.or_eq_true, hbit]
      grind
    · rw [if_neg hj]
      grind

theorem getLsbD_discardFlags (i : Spare) : (discardFlags s).getLsbD i.val = true ↔ spareState s i = .discarded := by
  rw [discardFlags, getLsbD_foldl_twoPow (fun j => spareState s j == .discarded)]
  simp

/-! #### The writes in order (R132) -/

/-- The records of a compaction, one for each entry from slot 0 up (R132). -/
def snapshots (entries : List MapEntry) : List CompactionWrite :=
  entries.zipIdx.map fun (e, k) => .snapshot k e.hostLine e.spare

@[simp] theorem length_snapshots (entries : List MapEntry) : (snapshots entries).length = entries.length := by
  simp [snapshots]

theorem getElem?_snapshots {entries : List MapEntry} {k : Nat} {e : MapEntry} (hk : entries[k]? = some e) :
    (snapshots entries)[k]? = some (.snapshot k e.hostLine e.spare) := by
  simp [snapshots, List.getElem?_zipIdx, hk]

theorem compactionWrites_eq (entries : List MapEntry) (carried : Option AppendRecord) :
    compactionWrites entries carried =
      .blankHeader ::
        (snapshots entries ++ (carried.toList.map (.carried entries.length) ++ [.bitmapLow, .bitmapHigh, .header])) := by
  cases carried <;> simp [compactionWrites, snapshots]

/-- Behind the blank header and the snapshots stand the carried record and the three lines that end the compaction. -/
theorem getElem?_compactionWrites_after (entries : List MapEntry) (carried : Option AppendRecord) (k : Nat) :
    (compactionWrites entries carried)[entries.length + k + 1]? =
      (carried.toList.map (.carried entries.length) ++ [.bitmapLow, .bitmapHigh, .header])[k]? := by
  rw [compactionWrites_eq, List.getElem?_cons_succ, List.getElem?_append_right (by simp), length_snapshots,
    Nat.add_sub_cancel_left]

/-- The three lines that end a compaction (R132). -/
theorem getElem?_compactionWrites_end (entries : List MapEntry) (carried : Option AppendRecord) (k : Nat) :
    (compactionWrites entries carried)[entries.length + carried.toList.length + 1 + k]? =
      [CompactionWrite.bitmapLow, .bitmapHigh, .header][k]? := by
  rw [show entries.length + carried.toList.length + 1 + k = entries.length + (carried.toList.length + k) + 1 by omega,
    getElem?_compactionWrites_after, List.getElem?_append_right (by simp), List.length_map, Nat.add_sub_cancel_left]

/-! #### The failure (R134) -/

/-- The journal FAILED with its notice, before the pending append is answered (R134). -/
def journalFailed (cause : FailCause) (s : State) : State :=
  raiseJournalFailed cause s.journal.uncertain { s with journal := { s.journal with state := .failed, work := .none } }

theorem journalFailed_journal : (journalFailed cause s).journal = { s.journal with state := .failed, work := .none } :=
  raise_journal ..

theorem journalFailed_opState : (journalFailed cause s).opState = s.opState := raise_opState ..

theorem answerFailed_of_none (hpending : s.journal.pending = none) : answerFailed s = s := by
  simp only [answerFailed, hpending]

theorem answerFailed_of_some (hpending : s.journal.pending ≠ none) :
    answerFailed s = runHead (endFailed { s with journal := { s.journal with pending := none } }) := by
  obtain ⟨r, hr⟩ := Option.ne_none_iff_exists'.mp hpending
  simp only [answerFailed, hr]

theorem answerFailed_opState : (answerFailed s).opState = .rebuild ↔ s.opState = .rebuild := by
  by_cases hpending : s.journal.pending = none
  · rw [answerFailed_of_none hpending]
  · rw [answerFailed_of_some hpending]
    exact (SameJournal.endFailed.trans SameJournal.runHead).rebuild

theorem failCompaction_of_service (ho : s.opState ≠ .rebuild) :
    failCompaction cause s = drainCheck (answerFailed (journalFailed cause s)) :=
  if_neg fun h => ho (journalFailed_opState (cause := cause) ▸ answerFailed_opState.mp h)

theorem failCompaction_of_rebuild (ho : s.opState = .rebuild) :
    failCompaction cause s =
      if cause = .timeout then halt .mediaTimeout (answerFailed (journalFailed cause s))
      else finishRebuild (answerFailed (journalFailed cause s)) :=
  if_pos (answerFailed_opState.mpr (journalFailed_opState.trans ho))

theorem halt_of_idle {cause : HaltCause} (hwork : s.journal.work = .none) :
    halt cause s = raiseRebuildDone 3 { s with opState := .halted, haltCause := cause } := by
  have hjournal : ({ s.journal with work := .none } : Journal) = s.journal := by rw [← hwork]
  rw [halt, hjournal]

/-! #### The completion (R133) -/

section Work

variable (hwork : s.journal.work = .compact c)
include hwork

theorem workRequest_of_compact (htodo : c.todo = w :: rest) : workRequest s = some (compactionRequest s c w) := by
  simp only [workRequest, hwork, htodo]

theorem workResult_of_compact_done : workResult .done s = compactionAdvance c s := by
  simp only [workResult, hwork]

theorem workResult_of_compact_exhausted : workResult .exhausted s = failCompaction .programFail s := by
  simp only [workResult, hwork]

theorem workResult_of_compact_timeout : workResult .timeout s = failCompaction .timeout s := by
  simp only [workResult, hwork]

end Work

theorem compactionAdvance_of_more (htodo : c.todo = w :: rest) (hrest : rest ≠ []) :
    compactionAdvance c s = { s with journal := { s.journal with work := .compact { c with todo := rest } } } := by
  obtain ⟨x, l, rfl⟩ := List.exists_cons_of_ne_nil hrest
  simp only [compactionAdvance, htodo]

theorem compactionAdvance_of_last (htodo : c.todo = [w]) : compactionAdvance c s = compactionDone c s := by
  simp only [compactionAdvance, htodo]

/-- The journal is IDLE with no work. -/
def journalAtRest (s : State) : State := { s with journal := { s.journal with state := .idle } }

theorem idle_of_no_work (hwork : s.journal.work = .none) :
    { s with journal := { s.journal with state := .idle, work := .none } } = journalAtRest s := by
  rw [← hwork]
  rfl

section Answered

variable (hpending : s.journal.pending = none) (hwork : s.journal.work = .none)
include hpending hwork

theorem afterCompaction_of_service (ho : s.opState ≠ .rebuild) : afterCompaction s = drainCheck (journalAtRest s) := by
  rw [← idle_of_no_work hwork]
  unfold afterCompaction
  split
  · next r hr => cases hpending.symm.trans hr
  · exact if_neg ho

theorem afterCompaction_of_rebuild (ho : s.opState = .rebuild) : afterCompaction s = finishRebuild (journalAtRest s) := by
  rw [← idle_of_no_work hwork]
  unfold afterCompaction
  split
  · next r hr => cases hpending.symm.trans hr
  · exact if_pos ho

end Answered

theorem afterCompaction_of_held (hpending : s.journal.pending = some r) :
    afterCompaction s = { s with journal := { s.journal with state := .appending, work := .append } } := by
  simp only [afterCompaction, hpending]

theorem answerCarried_of_none (hpending : s.journal.pending = none) : answerCarried c s = s := by
  cases hc : c.carries <;> simp only [answerCarried, hpending, hc]

theorem answerCarried_of_held (hc : c.carries = false) : answerCarried c s = s := by
  simp only [answerCarried, hc]

theorem answerCarried_of_carried (hc : c.carries = true) (hpending : s.journal.pending = some r) :
    answerCarried c s = answerDone r c.generation { s with journal := { s.journal with pending := none } } := by
  simp only [answerCarried, hc, hpending]

/-- The compaction has switched the halves, is counted and told, and its pending append is not answered yet (R133). -/
def compacted (c : Compaction) (target : Half) (s : State) : State :=
  raiseJournalCompacted c.generation c.records
    { s with
      counters := { s.counters with journalCompactions := satInc s.counters.journalCompactions }
      journal :=
        { s.journal with
          active := some target, generation := c.generation, tail := c.records, bitmap := c.flags, uncertain := none,
          work := .none } }

theorem afterDiscard_of_queue {q : List Job} (hq : s.queue = q) :
    afterDiscard s =
      match (generalizing := false) q with
      | [] => s
      | job :: _ =>
        if 4 ≤ job.attempts then endUnplaced (fun line t => raise .retireFailed (some line) none none [1] t) s
        else enterPlacing s := by
  subst hq
  rfl

theorem compactionDone_eq (hactive : s.journal.active = some h) :
    compactionDone c s = afterCompaction (answerCarried c (compacted c (otherHalf h) s)) := by
  have htarget : targetHalf s = otherHalf h := by simp only [targetHalf, hactive]
  rw [compactionDone, completedJournal, htarget]
  rfl

theorem compacted_journal {target : Half} :
    (compacted c target s).journal =
      { s.journal with
        active := some target, generation := c.generation, tail := c.records, bitmap := c.flags, uncertain := none,
        work := .none } := raise_journal ..

theorem compacted_opState {target : Half} : (compacted c target s).opState = s.opState := raise_opState ..

/-- Settles O57, by the start, the write and its result. -/
theorem compactionRuns : Obligations.CompactionRuns := by
  unfold Obligations.CompactionRuns
  intro rebuilt inService fails
  have hservice : ∀ (next : State → State) (t : State), inService next t (next (finishRebuild t)) := fun next t =>
    ⟨fun hpwarn => congrArg next (finishRebuild_of_up hpwarn),
      fun hpwarn hqueue hjournal => congrArg next (finishRebuild_of_drained hpwarn hqueue hjournal),
      fun hpwarn hqueue => congrArg next (finishRebuild_of_jobs hpwarn hqueue)⟩
  have hfails : ∀ (cause : FailCause) (next : State → State) (t : State),
      fails (val (failCauseCode cause)) next t (next (failCompaction cause t)) := by
    intro cause next t
    have hnone : t.journal.pending = none → answerFailed (journalFailed cause t) = journalFailed cause t := fun hpending =>
      answerFailed_of_none ((congrArg Journal.pending journalFailed_journal).trans hpending)
    refine ⟨fun ho => ⟨fun hpending => ?_, fun hpending => ?_⟩, fun ho hpending => ⟨fun hcause => ?_, fun hcause => ?_⟩⟩
    · rw [failCompaction_of_service ho, hnone hpending]
      rfl
    · have hsome : (journalFailed cause t).journal.pending ≠ none := by
        rw [journalFailed_journal]
        exact hpending
      rw [failCompaction_of_service ho, answerFailed_of_some hsome]
      rfl
    · have htimeout : cause = .timeout := by cases cause <;> revert hcause <;> decide
      rw [failCompaction_of_rebuild ho, hnone hpending, if_pos htimeout,
        halt_of_idle (congrArg Journal.work journalFailed_journal)]
      rfl
    · have hprogram : cause ≠ .timeout := by
        rintro rfl
        exact hcause rfl
      rw [failCompaction_of_rebuild ho, hnone hpending, if_neg hprogram]
      exact hservice next (journalFailed cause t)
  refine ⟨fun s hmap => ⟨fun e => mem_presentedEntries hmap.2.1, presentedEntries_sorted, getLsbD_discardFlags⟩,
    fun entries carried => ?writes, fun carries s => ⟨fun hlimit => ?limit, fun hroom => ?starts⟩,
    fun h c w rest s hwork hp hactive hstate htodo => ?runs⟩
  case writes =>
    intro writes n tail
    refine ⟨?_, rfl, fun k e hk => ?_, fun r hr => ?_, getElem?_compactionWrites_end entries carried 0,
      getElem?_compactionWrites_end entries carried 1, getElem?_compactionWrites_end entries carried 2⟩
    · simp [writes, n, tail, compactionWrites_eq]
      omega
    · have hlt : k < (snapshots entries).length := by
        rw [length_snapshots]
        exact (List.getElem?_eq_some_iff.mp hk).1
      rw [show writes = _ from compactionWrites_eq entries carried, List.getElem?_cons_succ, List.getElem?_append_left hlt]
      exact getElem?_snapshots hk
    · subst hr
      exact getElem?_compactionWrites_after entries (some r) 0
  case limit =>
    rw [startCompaction, if_pos hlimit]
    exact hfails .generationLimit id _
  case starts =>
    refine ⟨newCompaction carries s, rfl, rfl, newCompaction_flags, fun carried hcarried => ?_, startCompaction_of_room hroom⟩
    have hsame : carried = carriedRecord carries s.journal.pending := hcarried
    rw [hsame]
    exact ⟨newCompaction_todo, newCompaction_records⟩
  case runs =>
    intro j claim target base read
    have htarget : target = otherHalf h := by cases h <;> rfl
    have htargetHalf : targetHalf s = target := by rw [htarget]; simp only [targetHalf, hactive]
    have hdone : journalResult .done s = presentNext (compactionAdvance c (claimEnded s)) :=
      (journalResult_of_work hp).trans (congrArg presentNext (workResult_of_compact_done (s := claimEnded s) hwork))
    refine ⟨?_, fun hrest => ?more, fun hrest => ?last, ?_, ?_⟩
    · rw [journalRequest_of_work hp, workRequest_of_compact hwork htodo]
      cases w <;> simp only [compactionRequest, htargetHalf] <;> cases h <;> rfl
    case more =>
      refine hdone.trans ((congrArg presentNext (compactionAdvance_of_more htodo hrest)).trans
        (presentNext_of_more (by rfl) ?_))
      obtain ⟨x, l, rfl⟩ := List.exists_cons_of_ne_nil hrest
      simp [workRequest]
    case last =>
      subst hrest
      intro ended told idle
      have htold : told = compacted c target (claimEnded s) := rfl
      have hended : ended = presentNext (afterCompaction (answerCarried c told)) := by
        rw [htold, htarget, ← compactionDone_eq (s := claimEnded s) hactive]
        exact hdone.trans (congrArg presentNext (compactionAdvance_of_last htodo))
      have hjournal : told.journal = _ := compacted_journal (c := c) (target := target) (s := claimEnded s)
      have hopState : told.opState = s.opState := compacted_opState (c := c) (target := target) (s := claimEnded s)
      have hwork : told.journal.work = .none := by rw [hjournal]
      have hpendingOf : told.journal.pending = j.pending := by rw [hjournal]; rfl
      refine ⟨fun hnone => ?none, fun r hsome => ⟨fun hheld => ?held, fun hcarried => ?carried⟩⟩
      case none =>
        have hnone := hpendingOf.trans hnone
        rw [answerCarried_of_none hnone] at hended
        refine ⟨fun ho => ?_, fun ho => ?_⟩
        · rw [hended, afterCompaction_of_service hnone hwork (by rwa [hopState])]
          rfl
        · rw [hended, afterCompaction_of_rebuild hnone hwork (hopState.trans ho)]
          exact hservice presentNext (idle told)
      case held =>
        have hsome := hpendingOf.trans hsome
        rw [answerCarried_of_held hheld, afterCompaction_of_held hsome] at hended
        have hpresented : told.journal.presented = none := by rw [hjournal]; rfl
        have hclaim : claimOf told = claim := by rw [claimOf, hjournal]; rfl
        have hhalf : told.journal.active = some target := by rw [hjournal]
        have hrequest := workRequest_of_append
          (s := { told with journal := { told.journal with state := .appending, work := .append } }) rfl hhalf hsome
        replace hended := hended.trans (presentNext_of_more hpresented (hrequest ▸ Option.some_ne_none _))
        replace hended : ended =
            { told with
              journal := { told.journal with state := .appending, work := .append, presented := claim } } := hclaim ▸ hended
        refine ⟨hended, ?_⟩
        have hslot : MediaRequest.write (slotAddress target told.journal.tail) (recordLine told.journal.generation r) =
            .write (base + 3 + c.records) (recordLine c.generation r) := by
          rw [hjournal]
          cases h <;> rfl
        rw [hended, ← hslot, ← hrequest]
        rfl
      case carried =>
        intro cleared answered
        have hsome := hpendingOf.trans hsome
        have hqueue : cleared.queue = s.queue := raise_queue ..
        have hanswered : answerDone r c.generation cleared = answered := by
          cases r with
          | retire | reretire => rfl
          | discard => exact congrArg runHead (afterDiscard_of_queue hqueue)
        have kept : SameJournal cleared answered := hanswered ▸ SameJournal.answerDone
        have hclear : answered.journal.pending = none := congrArg Journal.pending kept.journal
        have hrests : answered.journal.work = .none := (congrArg Journal.work kept.journal).trans hwork
        have hrebuild : answered.opState = .rebuild ↔ s.opState = .rebuild := kept.rebuild.trans (by rw [← hopState])
        replace hended : ended = presentNext (afterCompaction answered) := by
          rw [hended, answerCarried_of_carried hcarried hsome, ← hanswered]
        refine ⟨fun ho => ?_, fun ho => ?_⟩
        · rw [hended, afterCompaction_of_service hclear hrests (mt hrebuild.mp ho)]
          rfl
        · rw [hended, afterCompaction_of_rebuild hclear hrests (hrebuild.mpr ho)]
          exact hservice presentNext (idle answered)
    · refine Eq.subst (motive := fun u => fails 1 presentNext read u) ?_ (hfails .programFail presentNext read)
      rw [journalResult_of_work hp, workResult_of_compact_exhausted (s := claimEnded s) hwork]
      rfl
    · refine Eq.subst (motive := fun u => fails 2 presentNext read u) ?_ (hfails .timeout presentNext read)
      rw [journalResult_of_work hp, workResult_of_compact_timeout (s := claimEnded s) hwork]
      rfl

end Compaction

end Sys2Proof.Machine

/-! ### The decode of an interleave finds the nearest valid one within two symbols (O50) -/

namespace Sys2Proof.Machine

section Decoding

variable {i : Nat} {u v w : Interleave} {p : Fin 21} {x : Byte}

/-! #### The places at which two interleaves differ -/

/-- The places at which two interleaves differ. -/
def differs (u v : Interleave) : Finset (Fin 21) := Finset.univ.filter fun p => u[p.val] ≠ v[p.val]

theorem mem_differs : p ∈ differs u v ↔ u[p.val] ≠ v[p.val] := by simp [differs]

theorem card_differs : (differs u v).card = interleaveDistance u v := by
  have hfilter : ((List.finRange 21).filter fun p => u[p.val] != v[p.val]) =
      (List.finRange 21).filter fun p => decide (u[p.val] ≠ v[p.val]) :=
    List.filter_congr fun p _ => by rw [Bool.eq_iff_iff]; simp
  rw [interleaveDistance, hfilter, ← List.toFinset_card_of_nodup ((List.nodup_finRange 21).filter _)]
  congr 1
  ext p
  simp [differs]

theorem differs_set (hx : x ≠ v[p.val]) : differs (v.set p.val x) v = {p} := by
  ext q
  rw [mem_differs, Finset.mem_singleton, Vector.getElem_set]
  by_cases hq : p = q
  · subst hq
    simp [hx]
  · simp [Fin.val_inj, hq, Ne.symm hq]

/-- A symbol taken from the other interleave is one difference less. -/
theorem differs_set_self : differs u (v.set p.val u[p.val]) = (differs u v).erase p := by
  ext q
  rw [mem_differs, Finset.mem_erase, mem_differs, Vector.getElem_set]
  by_cases hq : p = q
  · subst hq
    simp
  · simp [Fin.val_inj, hq, Ne.symm hq]

theorem distance_eq_zero_iff : interleaveDistance u v = 0 ↔ u = v := by
  rw [← card_differs, Finset.card_eq_zero, Finset.eq_empty_iff_forall_notMem]
  constructor
  · intro h
    ext k hk
    by_contra hne
    exact h ⟨k, hk⟩ (mem_differs.mpr fun heq => hne (by rw [heq]))
  · rintro rfl p
    simp [mem_differs]

/-! #### The words one symbol away -/

theorem mem_singleChanges : u ∈ singleChanges v ↔ ∃ (p : Fin 21) (x : Byte), x ≠ v[p.val] ∧ u = v.set p.val x := by
  simp only [singleChanges, List.mem_flatMap, List.mem_finRange, true_and, List.mem_map, List.mem_range]
  constructor
  · rintro ⟨p, e, he, rfl⟩
    refine ⟨p, _, fun h => ?_, rfl⟩
    have hzero : BitVec.ofNat 8 (e + 1) = 0#8 := by simpa using congrArg (v[p.val] ^^^ ·) h
    have := congrArg BitVec.toNat hzero
    rw [BitVec.toNat_ofNat, BitVec.toNat_zero] at this
    omega
  · rintro ⟨p, x, hx, rfl⟩
    have hne : (v[p.val] ^^^ x).toNat ≠ 0 := fun h =>
      hx (BitVec.xor_eq_zero_iff.mp (BitVec.eq_of_toNat_eq (by simpa using h))).symm
    have hlt := (v[p.val] ^^^ x).isLt
    refine ⟨p, (v[p.val] ^^^ x).toNat - 1, by omega, ?_⟩
    rw [Nat.sub_add_cancel (Nat.pos_of_ne_zero hne), BitVec.ofNat_toNat, BitVec.setWidth_eq, ← BitVec.xor_assoc,
      BitVec.xor_self, BitVec.zero_xor]

theorem mem_singleChanges_iff : u ∈ singleChanges v ↔ interleaveDistance u v = 1 := by
  rw [mem_singleChanges, ← card_differs]
  constructor
  · rintro ⟨p, x, hx, rfl⟩
    rw [differs_set hx, Finset.card_singleton]
  · intro h
    obtain ⟨p, hp⟩ := Finset.card_eq_one.mp h
    have hmem : p ∈ differs u v := by simp [hp]
    refine ⟨p, u[p.val], mem_differs.mp hmem, distance_eq_zero_iff.mp ?_⟩
    rw [← card_differs, differs_set_self, hp, Finset.erase_singleton, Finset.card_empty]

/-- A word two symbols away is one symbol from a word one symbol away. -/
theorem exists_between (h : interleaveDistance u v = 2) : ∃ w ∈ singleChanges v, u ∈ singleChanges w := by
  rw [← card_differs] at h
  obtain ⟨p, hp⟩ := Finset.card_pos.mp (h ▸ Nat.two_pos)
  refine ⟨v.set p.val u[p.val], mem_singleChanges.mpr ⟨p, _, mem_differs.mp hp, rfl⟩, mem_singleChanges_iff.mpr ?_⟩
  rw [← card_differs, differs_set_self, Finset.card_erase_of_mem hp, h]

/-! #### The decode -/

/-- `u` is a valid interleave `n` symbols from `v`, and none is nearer. -/
structure Nearest (i : Nat) (v u : Interleave) (n : Nat) : Prop where
  valid : isValid i u = true
  distance : interleaveDistance u v = n
  nearest : ∀ w, isValid i w = true → n ≤ interleaveDistance w v

/-- What a decode reports and delivers (R22): the nearest valid interleave within two symbols, or OVER and the symbols as read
where there is none. -/
theorem decodeInterleave_spec (i : Nat) (v : Interleave) :
    ((decodeInterleave i v).1 ≠ .over ∧
        Nearest i v (decodeInterleave i v).2 (countCorrections (decodeInterleave i v).1)) ∨
      (decodeInterleave i v = (.over, v) ∧ ∀ u, isValid i u = true → 2 < interleaveDistance u v) := by
  unfold decodeInterleave
  by_cases hv : isValid i v = true
  · rw [if_pos hv]
    exact .inl ⟨nofun, hv, distance_eq_zero_iff.mpr rfl, fun _ _ => Nat.zero_le _⟩
  rw [if_neg hv]
  have hzero : ∀ w, isValid i w = true → 1 ≤ interleaveDistance w v := fun w hw =>
    Nat.pos_of_ne_zero fun h => hv (distance_eq_zero_iff.mp h ▸ hw)
  cases hone : (singleChanges v).find? (isValid i) with
  | some u =>
    exact .inl ⟨nofun, List.find?_some hone, mem_singleChanges_iff.mp (List.mem_of_find?_eq_some hone), hzero⟩
  | none =>
    have hnone : ∀ w, isValid i w = true → 2 ≤ interleaveDistance w v := fun w hw =>
      Nat.lt_of_le_of_ne (hzero w hw) fun h =>
        List.find?_eq_none.mp hone w (mem_singleChanges_iff.mpr h.symm) hw
    cases htwo : (singleChanges v).findSome? fun u => (singleChanges u).find? (isValid i) with
    | some u =>
      obtain ⟨w, hw, hu⟩ := List.exists_of_findSome?_eq_some htwo
      have hvalid : isValid i u = true := List.find?_some hu
      have huw := mem_singleChanges_iff.mp (List.mem_of_find?_eq_some hu)
      have hwv := mem_singleChanges_iff.mp hw
      have hle := interleaveDistance_triangle u w v
      have hdistance : interleaveDistance u v = 2 := Nat.le_antisymm (by omega) (hnone u hvalid)
      exact .inl ⟨nofun, hvalid, hdistance, hnone⟩
    | none =>
      refine .inr ⟨rfl, fun u hu => Nat.lt_of_le_of_ne (hnone u hu) fun h => ?_⟩
      obtain ⟨w, hw, huw⟩ := exists_between h.symm
      exact List.find?_eq_none.mp (List.findSome?_eq_none_iff.mp htwo w hw) u huw hu

theorem countCorrections_le_two (c : Count) : countCorrections c ≤ 2 := by cases c <;> decide

/-- A decode within two symbols delivers the valid interleave and counts the symbols (R22). -/
theorem decodeInterleave_of_near (hu : isValid i u = true) (h : interleaveDistance u v ≤ 2) :
    (decodeInterleave i v).1 ≠ .over ∧ countCorrections (decodeInterleave i v).1 = interleaveDistance u v ∧
      (decodeInterleave i v).2 = u := by
  rcases decodeInterleave_spec i v with ⟨hover, hnearest⟩ | ⟨-, hfar⟩
  · have hle := hnearest.nearest u hu
    have hsame : (decodeInterleave i v).2 = u := valid_unique hnearest.valid hu (by rw [hnearest.distance]; omega)
    exact ⟨hover, by rw [← hnearest.distance, hsame], hsame⟩
  · exact absurd (hfar u hu) (Nat.not_lt.mpr h)

/-- A word exactly three symbols from a valid one is OVER, and delivered as read (R22). -/
theorem decodeInterleave_of_three (hu : isValid i u = true) (h : interleaveDistance u v = 3) :
    decodeInterleave i v = (.over, v) := by
  rcases decodeInterleave_spec i v with ⟨-, hnearest⟩ | ⟨hover, -⟩
  · have hle := countCorrections_le_two (decodeInterleave i v).1
    have hsame : (decodeInterleave i v).2 = u := valid_unique hnearest.valid hu (by rw [hnearest.distance]; omega)
    have := hnearest.distance
    rw [hsame] at this
    omega
  · exact hover

end Decoding

end Sys2Proof.Machine

/-! ### The interleaves of a codeword and what its decode delivers (O50) -/

namespace Sys2Proof.Machine

section Layout

variable {w : Codeword} {i n k heavyTotal : Nat}

theorem getElem_tabulate {α : Type} (n : Nat) (f : Nat → α) (k : Nat) (h : k < n) : (tabulate n f)[k] = f k := by
  simp [tabulate]

theorem getD_toList {α : Type} {n : Nat} (v : Vector α n) (d : α) {k : Nat} (h : k < n) : v.toList[k]?.getD d = v[k] := by
  simp [h]

/-- Interleave `i` has the data bytes i, i + 4, up to i + 60 (R19). -/
theorem interleaveOf_data (hi : i < 4) (hk : k < 16) : (interleaveOf w i)[k] = w[i + 4 * k] := by
  rw [interleaveOf, getElem_tabulate, if_pos hk, getD_toList]

/-- The check bytes of interleave `i` stand from 64 + 5 i on (R19). -/
theorem interleaveOf_check (hi : i < 4) (hk : k < 5) : (interleaveOf w i)[16 + k] = w[64 + 5 * i + k] := by
  rw [interleaveOf, getElem_tabulate, if_neg (by omega), getD_toList _ _ (by omega)]
  simp only [Nat.add_sub_cancel_left]

/-- A data byte delivered is that of its interleave's decode (R26, R27). -/
theorem byteAt_decodeData (hn : n < 64) :
    byteAt (decodeData w) n = (decodeInterleave (n % 4) (interleaveOf w (n % 4))).2[n / 4] := by
  rw [decodeData, byteAt_tabulate hn, getD_toList _ _ (by omega), decodedInterleave]

/-- An interleave that is OVER is delivered as read (R22). -/
theorem delivered_of_over {v : Interleave} (h : (decodeInterleave i v).1 = .over) : (decodeInterleave i v).2 = v := by
  rcases decodeInterleave_spec i v with ⟨hover, -⟩ | ⟨hover, -⟩
  · exact absurd h hover
  · rw [hover]

theorem decodeData_of_over (hn : n < 64) (h : (decodeInterleave (n % 4) (interleaveOf w (n % 4))).1 = .over) :
    byteAt (decodeData w) n = w[n] := by
  rw [byteAt_decodeData hn]
  simp only [delivered_of_over h]
  rw [interleaveOf_data (by omega) (by omega)]
  simp only [Nat.mod_add_div]

theorem eq_of_countCorrections {c d : Count} (hc : c ≠ .over) (hd : d ≠ .over)
    (h : countCorrections c = countCorrections d) : c = d := by
  revert hc hd h
  cases c <;> cases d <;> decide

/-- The count of a decode of a word within two symbols (R22). -/
theorem count_of_near {u v : Interleave} (hu : isValid i u = true) {c : Count} (hc : c ≠ .over)
    (h : interleaveDistance u v = countCorrections c) : (decodeInterleave i v).1 = c := by
  obtain ⟨hover, hcount, -⟩ := decodeInterleave_of_near hu (h ▸ countCorrections_le_two c)
  exact eq_of_countCorrections hover hc (hcount.trans h)

/-- Settles O50, from the nearest valid interleave. -/
theorem decodingWithinTwoSymbols : Obligations.DecodingWithinTwoSymbols := by
  refine ⟨fun heavyTotal w =>
    ⟨fun i => ⟨fun p => interleaveOf_data i.isLt p.isLt, fun p => interleaveOf_check i.isLt p.isLt⟩, rfl,
      fun n => ⟨byteAt_decodeData n.isLt, decodeData_of_over n.isLt⟩⟩, fun i v => ?_⟩
  intro differences count delivered
  refine ⟨fun u hu => ⟨fun h => ?_, fun h => ?_, fun h => ?_, fun h => ?_⟩, ?_, ?_, fun u hu => ?_⟩
  · exact ⟨count_of_near (c := .zero) hu nofun h, (decodeInterleave_of_near hu (by show differences u ≤ 2; omega)).2.2⟩
  · exact ⟨count_of_near (c := .one) hu nofun h, (decodeInterleave_of_near hu (by show differences u ≤ 2; omega)).2.2⟩
  · exact ⟨count_of_near (c := .two) hu nofun h, (decodeInterleave_of_near hu (by show differences u ≤ 2; omega)).2.2⟩
  · have hover := decodeInterleave_of_three hu h
    exact ⟨congrArg Prod.fst hover, congrArg Prod.snd hover⟩
  · refine ⟨fun h u hu => Nat.lt_of_not_le fun hle => (decodeInterleave_of_near hu hle).1 h, fun hfar => ?_⟩
    rcases decodeInterleave_spec i v with ⟨-, hnearest⟩ | ⟨hover, -⟩
    · have hlt : 2 < countCorrections count := hnearest.distance ▸ hfar _ hnearest.valid
      exact absurd (countCorrections_le_two count) (Nat.not_le.mpr hlt)
    · exact congrArg Prod.fst hover
  · rcases decodeInterleave_spec i v with ⟨hcount, hnearest⟩ | ⟨hover, -⟩
    · exact .inr ⟨hcount, hnearest.valid, hnearest.distance⟩
    · exact .inl ⟨congrArg Prod.fst hover, congrArg Prod.snd hover⟩
  · rcases decodeInterleave_spec i v with ⟨-, hnearest⟩ | ⟨hover, -⟩
    · exact hnearest.nearest u hu
    · have hzero : countCorrections count = 0 := by rw [show count = .over from congrArg Prod.fst hover]; rfl
      rw [hzero]
      exact Nat.zero_le _

end Layout

end Sys2Proof.Machine

/-! ### The encoding of a line (O51) -/

namespace Sys2Proof.Machine

section Encoding

variable {d a b : LineData} {w : Codeword} {i n k heavyTotal : Nat} {x : Byte}

theorem encode_data (hn : n < 64) : (encode d)[n] = byteAt d n := by
  rw [encode, getElem_tabulate, if_pos hn]

theorem encode_check (hn : 64 ≤ n) (hlt : n < 84) :
    (encode d)[n] = checkByte (checkBits ((n - 64) / 5) (interleaveData d ((n - 64) / 5))) ((n - 64) % 5) := by
  rw [encode, getElem_tabulate, if_neg (Nat.not_lt.mpr hn)]

theorem byteAt_eq_getElem (hn : n < 64) : byteAt d n = d[n] := getD_toList d 0 hn

/-- The data bytes of an interleave of an encoded line are those of the line (R19). -/
theorem take_interleaveOf_encode (hi : i < 4) : (interleaveOf (encode d) i).toList.take 16 = interleaveData d i := by
  refine List.ext_getElem (by simp [interleaveData]) fun k hk _ => ?_
  have hk : k < 16 := by simp at hk; exact hk
  simp only [List.getElem_take, Vector.getElem_toList, interleaveOf_data hi hk, encode_data (by omega : i + 4 * k < 64),
    interleaveData, List.getElem_map, List.getElem_range]

/-- Each interleave of an encoded line is valid (R20). -/
theorem isValid_encode (hi : i < 4) : isValid i (interleaveOf (encode d) i) = true := by
  rw [isValid, beq_iff_eq, take_interleaveOf_encode hi]
  refine List.ext_getElem (by simp [checkSymbols]) fun k hk _ => ?_
  have hk : k < 5 := by simp at hk; exact hk
  have hline : (64 + 5 * i + k - 64) / 5 = i := by omega
  have hplace : (64 + 5 * i + k - 64) % 5 = k := by omega
  simp only [List.getElem_drop, Vector.getElem_toList, interleaveOf_check hi hk,
    encode_check (by omega : 64 ≤ 64 + 5 * i + k) (by omega), hline, hplace, checkSymbols, List.getElem_map,
    List.getElem_range]

/-- A codeword whose interleaves each decode to the line's gives the line (R22). -/
theorem decodeData_of_interleaves
    (h : ∀ i : Fin 4, (decodeInterleave i.val (interleaveOf w i.val)).2 = interleaveOf (encode d) i.val) : decodeData w = d := by
  refine Vector.ext fun n hn => ?_
  have hdelivered := h ⟨n % 4, Nat.mod_lt n (by omega)⟩
  rw [← byteAt_eq_getElem hn, byteAt_decodeData hn]
  simp only [hdelivered]
  rw [interleaveOf_data (by omega) (by omega)]
  simp only [Nat.mod_add_div]
  rw [encode_data hn, byteAt_eq_getElem hn]

theorem decodeOutcome_counts (i : Fin 4) :
    (decodeOutcome heavyTotal w).counts[i.val] = (decodeInterleave i.val (interleaveOf w i.val)).1 := by
  rw [decodeOutcome, outcomeOf_counts, getElem_tabulate]
  rfl

theorem decodeOutcome_of_zero (h : ∀ i : Fin 4, (decodeInterleave i.val (interleaveOf w i.val)).1 = .zero) :
    decodeOutcome heavyTotal w = { counts := Vector.replicate 4 .zero, depth := .zero, total := 0, cls := .clean } := by
  have hcounts : (tabulate 4 fun i => (decodedInterleave w i).1) = Vector.replicate 4 .zero := Vector.ext fun i hi => by
    rw [getElem_tabulate, Vector.getElem_replicate]
    exact h ⟨i, hi⟩
  rw [decodeOutcome, hcounts]
  rfl

theorem decodeOutcome_lost {i : Fin 4} (h : (decodeInterleave i.val (interleaveOf w i.val)).1 = .over) :
    (decodeOutcome heavyTotal w).cls = .lost := by
  refine outcomeOf_cls_of_over heavyTotal ?_
  rw [← h]
  exact List.mem_map.mpr ⟨i.val, List.mem_range.mpr i.isLt, rfl⟩

/-! #### Linearity (R20) -/

theorem byteAt_xor (hn : n < 64) : byteAt (Vector.zipWith (fun x y => x ^^^ y) a b) n = byteAt a n ^^^ byteAt b n := by
  simp only [byteAt_eq_getElem hn, Vector.getElem_zipWith]

theorem interleaveData_xor (hi : i < 4) :
    interleaveData (Vector.zipWith (fun x y => x ^^^ y) a b) i =
      List.zipWith (· ^^^ ·) (interleaveData a i) (interleaveData b i) := by
  simp only [interleaveData, List.zipWith_map, List.zipWith_self]
  refine List.map_congr_left fun k hk => ?_
  have := List.mem_range.mp hk
  exact byteAt_xor (by omega)

theorem checkBits_xor (hi : i < 4) :
    checkBits i (interleaveData (Vector.zipWith (fun x y => x ^^^ y) a b) i) =
      checkBits i (interleaveData a i) ^^^ checkBits i (interleaveData b i) := by
  rw [interleaveData_xor hi]
  exact rowSum_xor _ _ _ (by simp [interleaveData])

theorem encode_xor (hn : n < 84) :
    (encode (Vector.zipWith (fun x y => x ^^^ y) a b))[n] = (encode a)[n] ^^^ (encode b)[n] := by
  by_cases hdata : n < 64
  · rw [encode_data hdata, encode_data hdata, encode_data hdata, byteAt_xor hdata]
  · have hcheck : 64 ≤ n := Nat.le_of_not_lt hdata
    rw [encode_check hcheck hn, encode_check hcheck hn, encode_check hcheck hn, checkBits_xor (by omega), checkByte_xor]

theorem encode_zeroLine : encode zeroLine = Vector.replicate 84 0 := by
  have hzero : Vector.zipWith (fun x y => x ^^^ y) zeroLine zeroLine = zeroLine := by
    refine Vector.ext fun n hn => ?_
    simp [zeroLine]
  refine Vector.ext fun n hn => ?_
  have h := encode_xor (a := zeroLine) (b := zeroLine) hn
  rw [hzero, BitVec.xor_self] at h
  rw [Vector.getElem_replicate]
  exact h

/-! #### Locality (R19) -/

theorem interleaveData_set {k : Nat} (hk : k < 64) (hi : i < 4) (hne : i ≠ k % 4) :
    interleaveData (d.set k x) i = interleaveData d i := by
  refine List.map_congr_left fun j hj => ?_
  have hj := List.mem_range.mp hj
  have hn : i + 4 * j < 64 := by omega
  rw [byteAt_eq_getElem hn, byteAt_eq_getElem hn, Vector.getElem_set_ne _ _ (by omega)]

/-- Settles O51, from the decode within two symbols and the linearity of the check bits. -/
theorem encodeThenDecode : Obligations.EncodeThenDecode := by
  have hdistance : ∀ u : Interleave, interleaveDistance u u = 0 := fun u => distance_eq_zero_iff.mpr rfl
  refine ⟨fun heavyTotal d => ⟨?_, ?_⟩, fun heavyTotal d w => ?_, encode_zeroLine, fun a b n => encode_xor n.isLt,
    fun d k x n => ⟨encode_data, fun hn hne => ?_⟩⟩
  · exact decodeData_of_interleaves fun i => (decodeInterleave_of_near (isValid_encode i.isLt) (by rw [hdistance]; omega)).2.2
  · exact decodeOutcome_of_zero fun i => count_of_near (isValid_encode i.isLt) nofun (hdistance _)
  · intro changed o
    have hchanged : ∀ i : Fin 4, interleaveDistance (interleaveOf (encode d) i.val) (interleaveOf w i.val) = changed i.val :=
      fun i => interleaveDistance_comm _ _
    refine ⟨fun hnear => ⟨decodeData_of_interleaves fun i => ?_, fun i => ?_⟩, fun i hthree => ?_⟩
    · exact (decodeInterleave_of_near (isValid_encode i.isLt) (hchanged i ▸ hnear i)).2.2
    · have hle := hnear i
      have hdist := hchanged i
      refine (decodeOutcome_counts i).trans ?_
      generalize changed i.val = m at hle hdist
      match m, hle with
      | 0, _ => exact count_of_near (isValid_encode i.isLt) nofun hdist
      | 1, _ => exact count_of_near (isValid_encode i.isLt) nofun hdist
      | 2, _ => exact count_of_near (isValid_encode i.isLt) nofun hdist
    · have hover := congrArg Prod.fst (decodeInterleave_of_three (isValid_encode i.isLt) ((hchanged i).trans hthree))
      refine ⟨decodeOutcome_lost hover, (decodeOutcome_counts i).trans hover, fun p => decodeData_of_over (by omega) ?_⟩
      have hmod : (i.val + 4 * p.val) % 4 = i.val := by omega
      rw [hmod]
      exact hover
  · rw [encode_check hn n.isLt, encode_check hn n.isLt, interleaveData_set k.isLt (by omega) hne]

end Encoding

end Sys2Proof.Machine

/-! ### The lines of the journal and what is read from them (O52) -/

namespace Sys2Proof.Machine

section Lines

variable {bytes rest : List Byte} {n j : Nat} {d : LineData} {flags : BitVec 512}

theorem byteAt_lineOf (hn : n < 64) : byteAt (lineOf bytes) n = bytes[n]?.getD 0 := byteAt_tabulate hn

/-- The bytes that a check value covers are read back as they were written (12.3). -/
theorem take_lineOf (h : bytes.length ≤ 64) : (lineOf (bytes ++ rest)).toList.take bytes.length = bytes := by
  refine List.ext_getElem (by simpa using h) fun n _ hn => ?_
  rw [List.getElem_take, Vector.getElem_toList, ← byteAt_eq_getElem (by omega), byteAt_lineOf (by omega),
    List.getElem?_append_left hn, List.getElem?_eq_getElem hn, Option.getD_some]

/-- A number is its upper bits before its lower bits. -/
theorem extract_append_extract {m n : Nat} (x : BitVec (m + n)) : x.extractLsb' n m ++ x.extractLsb' 0 n = x := by
  refine BitVec.eq_of_getLsbD_eq fun k hk => ?_
  rw [BitVec.getLsbD_append, BitVec.getLsbD_extractLsb', BitVec.getLsbD_extractLsb']
  by_cases hlow : k < n
  · simp [hlow]
  · have hupper : k - n < m := by omega
    have hsum : n + (k - n) = k := by omega
    simp [hlow, hupper, hsum]

/-- A part of a part of a number. -/
theorem extract_extract {w start len a m : Nat} {x : BitVec w} (h : a + m ≤ len) :
    (x.extractLsb' start len).extractLsb' a m = x.extractLsb' (start + a) m := by
  refine BitVec.eq_of_getLsbD_eq fun k hk => ?_
  have hlt : a + k < len := by omega
  simp [hk, hlt, Nat.add_assoc]

theorem read16_eq {x : BitVec 16} (hhigh : byteAt d n = x.extractLsb' 8 8) (hlow : byteAt d (n + 1) = x.extractLsb' 0 8) :
    read16 d n = x := by
  rw [read16, hhigh, hlow]
  exact extract_append_extract (m := 8) (n := 8) x

theorem read32_eq {x : BitVec 32} (h0 : byteAt d n = x.extractLsb' 24 8) (h1 : byteAt d (n + 1) = x.extractLsb' 16 8)
    (h2 : byteAt d (n + 2) = x.extractLsb' 8 8) (h3 : byteAt d (n + 3) = x.extractLsb' 0 8) : read32 d n = x := by
  have hhigh : read16 d n = x.extractLsb' 16 16 :=
    read16_eq (h0.trans (extract_extract (by decide : 8 + 8 ≤ 16)).symm)
      (h1.trans (extract_extract (by decide : 0 + 8 ≤ 16)).symm)
  have hlow : read16 d (n + 2) = x.extractLsb' 0 16 :=
    read16_eq (h2.trans (extract_extract (by decide : 8 + 8 ≤ 16)).symm)
      (h3.trans (extract_extract (by decide : 0 + 8 ≤ 16)).symm)
  rw [read32, hhigh, hlow]
  exact extract_append_extract (m := 16) (n := 16) x

/-- A line of bytes that are followed by their check value (12.3). -/
def checkedLine (bytes : List Byte) : LineData := lineOf (bytes ++ be16 (checkValue bytes))

/-- The check value of a checked line matches (12.3). -/
theorem read16_checkedLine (h : bytes.length ≤ 62) :
    read16 (checkedLine bytes) bytes.length = checkValue ((checkedLine bytes).toList.take bytes.length) := by
  have htake : (checkedLine bytes).toList.take bytes.length = bytes := take_lineOf (by omega)
  rw [htake]
  refine read16_eq ?_ ?_
  · rw [checkedLine, byteAt_lineOf (by omega), List.getElem?_append_right (Nat.le_refl _), Nat.sub_self]
    rfl
  · rw [checkedLine, byteAt_lineOf (by omega), List.getElem?_append_right (by omega), Nat.add_sub_cancel_left]
    rfl

theorem byteAt_checkedLine (hn : n < bytes.length) (h : bytes.length ≤ 64) : byteAt (checkedLine bytes) n = bytes[n] := by
  rw [checkedLine, byteAt_lineOf (by omega), List.getElem?_append_left hn, List.getElem?_eq_getElem hn, Option.getD_some]

/-! #### Headers (R121, 12.3) -/

section Header

variable {generation : BitVec 32} {straps sampled : BitVec 2} {o : DecodeOutcome}

/-- The bytes of a header that its check value covers (12.3). -/
def headerBytes (generation : BitVec 32) (straps : BitVec 2) : List Byte :=
  headerMarker ++ be32 generation ++ n8 straps.toNat

theorem byteAt_headerLine (hn : n < 9) : byteAt (headerLine generation straps) n = (headerBytes generation straps)[n] :=
  byteAt_checkedLine hn (by decide : 9 ≤ 64)

theorem read32_headerLine : read32 (headerLine generation straps) 4 = generation :=
  read32_eq (byteAt_headerLine (by decide)) (byteAt_headerLine (by decide)) (byteAt_headerLine (by decide))
    (byteAt_headerLine (by decide))

theorem marker_headerLine : (headerLine generation straps).toList.take 4 = [0x4B, 0x4A, 0x52, 0x31] := by
  have htake : (headerLine generation straps).toList.take 9 = headerBytes generation straps :=
    take_lineOf (bytes := headerBytes generation straps) (by decide : 9 ≤ 64)
  rw [show 4 = min 4 9 from rfl, ← List.take_take, htake]
  rfl

theorem sizeCode_headerLine : (byteAt (headerLine generation straps) 8).toNat = straps.toNat := by
  have hbyte : byteAt (headerLine generation straps) 8 = BitVec.ofNat 8 straps.toNat := byteAt_headerLine (by decide)
  have := straps.isLt
  rw [hbyte, BitVec.toNat_ofNat, Nat.mod_eq_of_lt (by omega)]

/-- A header gives back its generation under its own size code (R121, R145). -/
theorem headerOf_headerLine (hgeneration : generation ≠ 0) :
    headerOf sampled o (headerLine generation straps) =
      if o.cls ≠ .lost ∧ sampled = straps then some generation else none := by
  refine Option.ext fun g => ?_
  rw [headerOf_eq_some_iff, marker_headerLine, sizeCode_headerLine, read32_headerLine, BitVec.toNat_inj]
  have hcheck := read16_checkedLine (bytes := headerBytes generation straps) (by decide : 9 ≤ 62)
  constructor
  · rintro ⟨hlost, -, -, hsize, -, rfl⟩
    exact if_pos ⟨hlost, hsize.symm⟩
  · intro h
    obtain ⟨⟨hlost, hsize⟩, hg⟩ := Option.ite_none_right_eq_some.mp h
    cases hg
    exact ⟨hlost, rfl, hcheck, hsize.symm, hgeneration, rfl⟩

end Header

/-! #### Records (R123, 12.3) -/

section Record

variable {generation hostLine : BitVec 32} {kind : Byte} {new old : BitVec 16}

/-- The bytes of a record that its check value covers (12.3). -/
def recordBytes (kind : Byte) (generation hostLine : BitVec 32) (new old : BitVec 16) : List Byte :=
  [kind] ++ be32 generation ++ be32 hostLine ++ be16 new ++ be16 old

theorem byteAt_recordBytes (hn : n < 13) :
    byteAt (checkedLine (recordBytes kind generation hostLine new old)) n =
      (recordBytes kind generation hostLine new old)[n] := byteAt_checkedLine hn (by decide : 13 ≤ 64)

/-- A record gives back its fields, with a check value that matches (R123, 12.3). -/
theorem recordOf_recordBytes (kind : Byte) (generation hostLine : BitVec 32) (new old : BitVec 16) :
    ∃ check, recordOf (checkedLine (recordBytes kind generation hostLine new old)) =
      { kind := kind, generation := generation, hostLine := hostLine, newSpare := new, oldSpare := old, check := check
        checkMatches := true } := by
  have hkind : byteAt (checkedLine (recordBytes kind generation hostLine new old)) 0 = kind := byteAt_recordBytes (by decide)
  have hgeneration : read32 (checkedLine (recordBytes kind generation hostLine new old)) 1 = generation :=
    read32_eq (byteAt_recordBytes (by decide)) (byteAt_recordBytes (by decide)) (byteAt_recordBytes (by decide))
      (byteAt_recordBytes (by decide))
  have hhostLine : read32 (checkedLine (recordBytes kind generation hostLine new old)) 5 = hostLine :=
    read32_eq (byteAt_recordBytes (by decide)) (byteAt_recordBytes (by decide)) (byteAt_recordBytes (by decide))
      (byteAt_recordBytes (by decide))
  have hnew : read16 (checkedLine (recordBytes kind generation hostLine new old)) 9 = new :=
    read16_eq (byteAt_recordBytes (by decide)) (byteAt_recordBytes (by decide))
  have hold : read16 (checkedLine (recordBytes kind generation hostLine new old)) 11 = old :=
    read16_eq (byteAt_recordBytes (by decide)) (byteAt_recordBytes (by decide))
  have hcheck : (read16 (checkedLine (recordBytes kind generation hostLine new old)) 13 ==
      checkValue ((checkedLine (recordBytes kind generation hostLine new old)).toList.take 13)) = true :=
    beq_iff_eq.mpr (read16_checkedLine (bytes := recordBytes kind generation hostLine new old) (by decide : 13 ≤ 62))
  exact ⟨_, by rw [recordOf, hkind, hgeneration, hhostLine, hnew, hold, hcheck]⟩

end Record

/-! #### Bitmap lines (12.3) -/

theorem getLsbD_shifted {b n : Nat} {x : Byte} (hn : n < 512) :
    ((x.setWidth 512) <<< (8 * b)).getLsbD n = (decide (n / 8 = b) && x.getLsbD (n % 8)) := by
  rw [BitVec.getLsbD_shiftLeft, BitVec.getLsbD_setWidth]
  by_cases hb : n / 8 = b
  · have hplace : n - 8 * b = n % 8 := by omega
    have hnot : ¬ n < 8 * b := by omega
    have hbit : n % 8 < 512 := by omega
    simp [hb, hn, hplace, hnot, hbit]
  · by_cases hbelow : n < 8 * b
    · simp [hb, hbelow]
    · have hbeyond : 8 ≤ n - 8 * b := by omega
      simp [hb, BitVec.getLsbD_of_ge x _ hbeyond]

/-- Flag `n` of a bitmap line is bit n mod 8 of byte n / 8 (12.3). -/
theorem getLsbD_bitmapFlags (hn : n < 512) : (bitmapFlags d).getLsbD n = (byteAt d (n / 8)).getLsbD (n % 8) := by
  have hfold : ∀ m, ((List.range m).foldl (fun acc b => acc ||| ((byteAt d b).setWidth 512 <<< (8 * b))) 0).getLsbD n =
      (decide (n / 8 < m) && (byteAt d (n / 8)).getLsbD (n % 8)) := by
    intro m
    induction m with
    | zero => simp
    | succ m ih =>
      rw [List.range_succ, List.foldl_append, List.foldl_cons, List.foldl_nil, BitVec.getLsbD_or, ih, getLsbD_shifted hn]
      by_cases hm : n / 8 = m
      · simp [hm]
      · have hlt : n / 8 < m + 1 ↔ n / 8 < m := by omega
        simp [hm, hlt]
  have hbyte : n / 8 < 64 := by omega
  rw [bitmapFlags, hfold, decide_eq_true hbyte, Bool.true_and]

theorem byteAt_bitmapLine (hn : n < 64) : byteAt (bitmapLine flags) n = flags.extractLsb' (8 * n) 8 := byteAt_tabulate hn

theorem bitmapFlags_bitmapLine : bitmapFlags (bitmapLine flags) = flags := by
  refine BitVec.eq_of_getLsbD_eq fun n hn => ?_
  have hbit : 8 * (n / 8) + n % 8 = n := Nat.div_add_mod n 8
  have hlt : n % 8 < 8 := Nat.mod_lt n (by decide)
  rw [getLsbD_bitmapFlags hn, byteAt_bitmapLine (by omega), BitVec.getLsbD_extractLsb', decide_eq_true hlt, hbit, Bool.true_and]

theorem bitmapLine_bitmapFlags : bitmapLine (bitmapFlags d) = d := by
  refine Vector.ext fun n hn => BitVec.eq_of_getLsbD_eq fun k hk => ?_
  have hbyte : (8 * n + k) / 8 = n := by omega
  have hbit : (8 * n + k) % 8 = k := by omega
  rw [← byteAt_eq_getElem hn, ← byteAt_eq_getElem hn, byteAt_bitmapLine hn, BitVec.getLsbD_extractLsb', decide_eq_true hk,
    getLsbD_bitmapFlags (by omega), hbyte, hbit, Bool.true_and]

/-- Settles O52, by the kind of the line. -/
theorem journalLinesRoundTrip : Obligations.JournalLinesRoundTrip := by
  refine ⟨fun generation straps sampled o hgeneration => headerOf_headerLine hgeneration, fun generation r limit hlimit hr => ?_,
    fun _ => bitmapFlags_bitmapLine, fun _ => bitmapLine_bitmapFlags, rfl, fun straps o => ?_⟩
  · have hspare : ∀ i : Spare, (BitVec.ofNat 16 i.val).toNat = i.val := fun i => by
      rw [BitVec.toNat_ofNat, Nat.mod_eq_of_lt (by omega)]
    have hline : ∀ h, h < limit → (BitVec.ofNat 32 h).toNat = h := fun h hlt => by
      rw [BitVec.toNat_ofNat, Nat.mod_eq_of_lt (by omega)]
    cases r with
    | retire h new =>
      obtain ⟨check, hraw⟩ := recordOf_recordBytes 1 generation (BitVec.ofNat 32 h)
        (BitVec.ofNat 16 new.val) (BitVec.ofNat 16 0)
      intro raw
      have hraw : raw = _ := hraw
      rw [hraw, consistentRecord_of_retire (hspare new) rfl, hline h hr, if_pos hr]
      exact ⟨rfl, rfl, rfl, rfl⟩
    | reretire h new old =>
      obtain ⟨hlt, hne⟩ := hr
      obtain ⟨check, hraw⟩ := recordOf_recordBytes 2 generation (BitVec.ofNat 32 h)
        (BitVec.ofNat 16 new.val) (BitVec.ofNat 16 old.val)
      intro raw
      have hraw : raw = _ := hraw
      rw [hraw, consistentRecord_of_reretire (hspare new) rfl, spareOf_of_eq (hspare old), hline h hlt]
      exact ⟨rfl, rfl, rfl, if_pos ⟨hlt, hne⟩⟩
    | discard new =>
      obtain ⟨check, hraw⟩ := recordOf_recordBytes 3 generation (BitVec.ofNat 32 0)
        (BitVec.ofNat 16 new.val) (BitVec.ofNat 16 0)
      intro raw
      have hraw : raw = _ := hraw
      rw [hraw, consistentRecord_of_discard (hspare new) rfl]
      exact ⟨rfl, rfl, rfl, rfl⟩
  · refine Option.eq_none_iff_forall_ne_some.mpr fun g h => ?_
    obtain ⟨-, hmarker, -⟩ := headerOf_eq_some_iff.mp h
    exact absurd hmarker (by decide)

end Lines

end Sys2Proof.Machine
